-- ==== Sys2Proof/Word.lean ====
section
/-! DEFINITION. The plain words of the part: bytes as they travel on its links and channels. -/

namespace Sys2Proof

/-- One byte on a master link, a fleet channel or the frequency sample line (R177, R179, R180). -/
abbrev Byte := BitVec 8

end Sys2Proof
end

