-- ==== Sys2Proof/Syntax.lean ====
section
/-! DEFINITION. The commands of the part: one constructor for each row of spec/opcode_table.json.
A request carries the link it arrives on, its frame's tag and the contents bytes of its frame (R177, R178). -/

namespace Sys2Proof

/-- The four master links (R165). -/
inductive Link where
  | tl | gl | fa | fb
deriving DecidableEq, Repr

/-- One character on a serial line: a byte, or a character with a framing error (R166, R33). -/
inductive RxChar where
  | ok (b : Byte)
  | bad
deriving DecidableEq, Repr

/-- The commands, named after the rows of the table. -/
inductive Instr where
  /-- RESET, R10. -/
  | reset
  /-- TIME_MARK, R2. -/
  | timeMark
  /-- MARK_WATCH_EXPIRY, R3. -/
  | markWatchExpiry
  /-- HOLDOVER_SECOND_TIMER_EXPIRY, R4. -/
  | holdoverSecondTimerExpiry
  /-- TIME, R5. -/
  | time (link : Link) (tag : Byte) (contents : List Byte)
  /-- GATE, R8. -/
  | gate (link : Link) (tag : Byte) (contents : List Byte)
  /-- FEEDER, R23. -/
  | feeder (link : Link) (tag : Byte) (contents : List Byte)
  /-- FEEDERS, R25. -/
  | feeders (link : Link) (tag : Byte) (contents : List Byte)
  /-- UNITS, R30. -/
  | units (link : Link) (tag : Byte) (contents : List Byte)
  /-- SETTINGS, R90 (with R17 and R43). -/
  | settings (link : Link) (tag : Byte) (contents : List Byte)
  /-- START, R34. -/
  | start (link : Link) (tag : Byte) (contents : List Byte)
  /-- STOP, R40. -/
  | stop (link : Link) (tag : Byte) (contents : List Byte)
  /-- ENGAGE, R41. -/
  | engage (link : Link) (tag : Byte) (contents : List Byte)
  /-- DISENGAGE, R42. -/
  | disengage (link : Link) (tag : Byte) (contents : List Byte)
  /-- CHANNELS, R55. -/
  | channels (link : Link) (tag : Byte) (contents : List Byte)
  /-- PRODUCT, R60. -/
  | product (link : Link) (tag : Byte) (contents : List Byte)
  /-- OFFER, R61. -/
  | offer (link : Link) (tag : Byte) (contents : List Byte)
  /-- QUOTE, R82. -/
  | quote (link : Link) (tag : Byte) (contents : List Byte)
  /-- AWARD, R63. -/
  | award (link : Link) (tag : Byte) (contents : List Byte)
  /-- WITHDRAW, R66. -/
  | withdraw (link : Link) (tag : Byte) (contents : List Byte)
  /-- DISCARD, R68. -/
  | discard (link : Link) (tag : Byte) (contents : List Byte)
  /-- RELEASE, R69. -/
  | release (link : Link) (tag : Byte) (contents : List Byte)
  /-- LIST, R78. -/
  | list (link : Link) (tag : Byte) (contents : List Byte)
  /-- ENTRY, R79. -/
  | entry (link : Link) (tag : Byte) (contents : List Byte)
  /-- TAKE, R152. -/
  | take (link : Link) (tag : Byte) (contents : List Byte)
  /-- MARGIN, R156. -/
  | margin (link : Link) (tag : Byte) (contents : List Byte)
  /-- THRESHOLDS, R157. -/
  | thresholds (link : Link) (tag : Byte) (contents : List Byte)
  /-- LOCK_SHORT, R157. -/
  | lockShort (link : Link) (tag : Byte) (contents : List Byte)
  /-- LINE_MODE, R158. -/
  | lineMode (link : Link) (tag : Byte) (contents : List Byte)
  /-- DEADBAND, R125. -/
  | deadband (link : Link) (tag : Byte) (contents : List Byte)
  /-- ACTIVATE, R126 and R169. -/
  | activate (link : Link) (tag : Byte) (contents : List Byte)
  /-- OVERRIDE, R129. -/
  | override (link : Link) (tag : Byte) (contents : List Byte)
  /-- CLEAR, R130. -/
  | clear (link : Link) (tag : Byte) (contents : List Byte)
  /-- DISPATCH, R142. -/
  | dispatch (link : Link) (tag : Byte) (contents : List Byte)
  /-- SET, R160. -/
  | set (link : Link) (tag : Byte) (contents : List Byte)
  /-- MAP, R173. -/
  | map (link : Link) (tag : Byte) (contents : List Byte)
  /-- BUSY, R168: a received frame, whatever its code, that arrives while a request is in process. -/
  | busy (link : Link) (code tag : Byte) (contents : List Byte)
  /-- UNKNOWN_REQUEST_CODE, R167 step 2: a received frame with a code of no request. -/
  | unknownRequestCode (link : Link) (code tag : Byte) (contents : List Byte)
  /-- DISCARDED_FRAME, R166: characters that reach the link's receiver and form no good frame. -/
  | discardedFrame (link : Link) (chars : List RxChar)
  /-- INTERCHARACTER_TIMEOUT, R166. -/
  | intercharacterTimeout (link : Link)
  /-- FRAME_SENT, R170. -/
  | frameSent (link : Link)
  /-- CHANNEL_FRAME_SENT, R32. -/
  | channelFrameSent (channel : Fin 8)
  /-- CHANNEL_ANSWER, R33: a frame from the concentrator, as the characters that arrived. -/
  | channelAnswer (channel : Fin 8) (chars : List RxChar)
  /-- REPLY_WAIT_EXPIRY, R33. -/
  | replyWaitExpiry (channel : Fin 8)
  /-- STRAY_CHANNEL_FRAME, R31. -/
  | strayChannelFrame (channel : Fin 8) (chars : List RxChar)
  /-- EXCHANGE_TIMER_EXPIRY, R44 and R52. -/
  | exchangeTimerExpiry
  /-- FREQUENCY_SAMPLE, R122 and R179: bytes on the frequency sample line. -/
  | frequencySample (bytes : List Byte)
  /-- SAMPLE_BYTE_TIMEOUT, R179. -/
  | sampleByteTimeout
  /-- FREQUENCY_WATCH_EXPIRY, R123. -/
  | frequencyWatchExpiry
  /-- SILENCE_TIMER_EXPIRY, R127. -/
  | silenceTimerExpiry
  /-- REPLAN_COMPLETE, R88. -/
  | replanComplete
  /-- TL_JOB_COMPLETE, R89. -/
  | tlJobComplete
  /-- RELEASE_OF_RESET, R31. -/
  | releaseOfReset
deriving DecidableEq, Repr

end Sys2Proof
end

