-- ==== Sys2Proof/Config.lean ====
section
/-! DEFINITION. What the part fixes once, and the values the manual leaves free.
An opaque constant here has no body: no proof can see what it is. -/

namespace Sys2Proof

/-- The highest slot index (R1). -/
def Config.maxSlot : Nat := 4294967295
/-- The highest slot index that TIME may set (R5). -/
def Config.maxSetSlot : Nat := 4000000000
/-- Seconds in a slot (R1). -/
def Config.slotSeconds : Nat := 900
/-- How far ahead of the current slot an offer or quote may begin (R9, R82). -/
def Config.horizon : Nat := 192
/-- The longest range of a sale, in slots (R9). -/
def Config.maxSlots : Nat := 96
/-- Unit indices (00, Numbering). -/
def Config.units : Nat := 4096
/-- Units on one channel's span (00, Numbering). -/
def Config.spanUnits : Nat := 512
/-- Feeder groups (R23). -/
def Config.feeders : Nat := 64
/-- Entry numbers of the book (04). -/
def Config.entries : Nat := 1024
/-- Share record numbers of the pool (R104). -/
def Config.pool : Nat := 32768
/-- Share records one unit may hold (R93, R105). -/
def Config.unitRecords : Nat := 16
/-- Members the change list may hold (R75). -/
def Config.changeMembers : Nat := 64
/-- Delivery records the queue may hold (R151). -/
def Config.deliveryQueue : Nat := 256
/-- Entries the Update Queue may hold (R159). -/
def Config.updateQueue : Nat := 32
/-- Start byte of a master-link frame (R177). -/
def Config.masterStart : Byte := 0xC3#8
/-- Start byte of a fleet channel frame (R180). -/
def Config.channelStart : Byte := 0x3C#8
/-- Start byte of a frequency sample frame (R179). -/
def Config.sampleStart : Byte := 0x96#8

/-- FREE VALUE (log 10). The number a field of `n` bytes carries when the value formed for it does not
fit the width the formats chapter gives it: the spec states no result there. -/
opaque Config.overWide : (n : Nat) → (value : Int) → Nat

/-- FREE VALUE (log 6). Where the Update Queue's drain falls at the `k`-th slot boundary: whether it
comes before the Commitment Book's transitions, and whether it comes before the Share Table's freeing.
R164 lets either be taken first. -/
opaque Config.drainOrder : (k : Nat) → Bool × Bool

/-- FREE VALUE (log 30). Whether the time mark that is the next command falls together with the expiry of
the mark watch before it, when `waiting` commands wait. R3 says that the two may fall together; nothing in
the order in which they are taken says whether they do. -/
opaque Config.fallsTogether : (waiting : Nat) → Bool

end Sys2Proof
end

