-- ==== Sys2Proof/Machine/State.lean ====
section
/-! DEFINITION. The state of the part, block by block, and its reset values. Plain data throughout.
Tables indexed by a number (units, feeders, channels, entries, accumulators) are kept as lists of
(number, record) pairs in ascending order that list only what differs from the record a reset gives
(log 17). -/

namespace Sys2Proof.Machine

/-! ### Names and codes -/

/-- FLEET, OPERATOR and MARKET, the classes of R165. -/
inductive LinkClass where
  | market | operator | fleet
deriving DecidableEq, Repr

/-- The products of R59. -/
inductive Product where
  | fsr | rsu | rsd
deriving DecidableEq, Repr

/-- The direction classes of R59. -/
inductive DirClass where
  | up | down | symmetric
deriving DecidableEq, Repr

/-- The states of a book entry (04, The book entry). -/
inductive EntryState where
  | offered | awarded | locked | active | ended | withdrawn | lapsed | released
deriving DecidableEq, Repr

/-- Why a catalogue was rejected (R38). -/
inductive RejectReason where
  | missingRecord | badKind | badWidth | badScale | payloadTooLong | badFeeder
deriving DecidableEq, Repr

/-- The states of a unit. The reject reason is present in REJECTED only (R10). -/
inductive UnitState where
  | empty | probing | ready
  | rejected (reason : RejectReason)
  | lost
deriving DecidableEq, Repr

/-- The kinds of a descriptor record; a code not listed is kept as received (R180). -/
inductive DescKind where
  | soc | energy | dischargePower | chargePower | efficiency | feeder | measuredPower | setpoint | pad
  | unknown (code : Byte)
deriving DecidableEq, Repr

/-- The directions of a descriptor record; a code not listed is kept as received (R180). -/
inductive DescDir where
  | fixed | reported | commanded
  | unknown (code : Byte)
deriving DecidableEq, Repr

/-- The states of a channel (03, The channel record). -/
inductive ChannelState where
  | stopped | starting | idling | running | faulted
deriving DecidableEq, Repr

/-- The outcome of an awaited frame (R33). -/
inductive ReplyOutcome where
  | good | timeout | checkError | framing | extraData
deriving DecidableEq, Repr

/-- The frame kinds the part sends on a channel (R180); a CATALOGUE frame names a drop and a page. -/
inductive ChannelFrame where
  | halt | arm | roster
  | catalogue (drop page : Nat)
  | exchange
deriving DecidableEq, Repr

/-- Who sent a channel frame, and so to whom its outcome is handed (R33). `nobody` stands for HALT,
which has no outcome, and for a frame whose sender a STOP has abandoned (R40). -/
inductive FrameOwner where
  | discovery | round | rearm | nobody
deriving DecidableEq, Repr

/-- The step of a discovery (R34 to R37). -/
inductive DiscoveryStep where
  | arm | roster | catalogue
deriving DecidableEq, Repr

/-- The overrides of R129. -/
inductive Override where
  | none | halt | fullUp
deriving DecidableEq, Repr

/-- The methods of R131. The zero method is kept apart by its cause, since R148 asks for it. -/
inductive Method where
  | zeroUnset | zeroHalt | fullUp | normal
deriving DecidableEq, Repr

/-- The margin states of R153. -/
inductive MarginState where
  | sound | thin | short
deriving DecidableEq, Repr

/-- The line modes of R153. -/
inductive LineMode where
  | level | latched
deriving DecidableEq, Repr

/-- The notice kinds, in the kind order of R175. -/
inductive NoticeKind where
  | entry | margin | channel | freqLost | operatorSilent | timeMark | records | override
deriving DecidableEq, Repr

/-- The answer codes of R177. -/
inductive AnswerCode where
  | done | busy | denied | badRequest | badRange | bookFull | duplicateRef | noEntry | wrongState
  | noTime | tooLate | locked | recordsHeld | overlap | overrideActive | queueFull | empty
  | insufficient | poolFull
deriving DecidableEq, Repr

/-- A timer: stopped (or expired), or running, armed with an interval in milliseconds (log 4). -/
abbrev Timer := Option Nat

/-! ### Time Base -/

/-- The Time Base (01). -/
structure TimeBase where
  timeSet : Bool
  slot : Nat
  second : Nat
  holdover : Bool
  markWatch : Timer
  holdoverTimer : Timer
  gate : Nat
deriving DecidableEq, Repr

/-- The time status of R7. -/
structure TimeStatus where
  timeSet : Bool
  holdover : Bool
  slot : Nat
  second : Nat
deriving DecidableEq, Repr

/-! ### Unit Table -/

/-- A descriptor record of a catalogue (R180). -/
structure Descriptor where
  kind : DescKind
  dir : DescDir
  width : Nat
  min : Int
  max : Int
  fixedValue : Option Int
  name : List Byte
deriving DecidableEq, Repr

/-- A unit record (02, The unit record). `owesEvent`: it was excluded while not contributing, and the event of that
exclusion is still to be raised (R162; log 35). -/
structure UnitRec where
  state : UnitState
  site : BitVec 32
  feeder : Nat
  pd : Nat
  pc : Nat
  energy : Nat
  eta : Nat
  soc : Nat
  measured : Int
  floor : Nat
  ceiling : Nat
  excluded : Bool
  miss : Nat
  run : Nat
  catalogue : List Descriptor
  owesEvent : Bool
deriving DecidableEq, Repr

/-- A feeder group's limits, in kW (R23). -/
structure FeederLimits where
  exportKw : Nat
  importKw : Nat
deriving DecidableEq, Repr

/-- The Unit Table: the unit records that differ from the reset record, the feeder groups that differ
from 0 and 0, and the lost limit. -/
structure UnitTable where
  units : List (Nat × UnitRec)
  feeders : List (Nat × FeederLimits)
  lostLimit : Nat
deriving DecidableEq, Repr

/-! ### Fleet Channel Controller -/

/-- The sticky fault set (R31, R48). -/
structure FaultSet where
  timeout : Bool
  checkError : Bool
  framing : Bool
  extraData : Bool
  watchdogBite : Bool
  tooMany : Bool
deriving DecidableEq, Repr

/-- Discovery progress (03): present in STARTING only. -/
structure Discovery where
  step : DiscoveryStep
  attempt : Nat
  position : Nat
  page : Nat
  records : List Descriptor
deriving DecidableEq, Repr

/-- A channel's line (R32): FREE, carrying a frame of the part's, or AWAITING an answer with the reply
wait it started with. -/
inductive ChannelLine where
  | free
  | sending (frame : ChannelFrame) (owner : FrameOwner) (wire : List Byte)
  | awaiting (frame : ChannelFrame) (owner : FrameOwner) (wait : Nat)
deriving DecidableEq, Repr

/-- A channel record (03, The channel record). -/
structure ChannelRec where
  state : ChannelState
  sticky : FaultSet
  failures : Nat
  roster : List Nat
  discovery : Option Discovery
  line : ChannelLine
  haltPending : Bool
  armPending : Bool
  exchangePending : Bool
  fault : Bool
deriving DecidableEq, Repr

/-- The exchange round in flight (R44), its channels in ascending order. -/
structure Round where
  participating : List Nat
  outstanding : List Nat
  failed : List Nat
deriving DecidableEq, Repr

/-- The Fleet Channel Controller (03). -/
structure Controller where
  channels : List (Nat × ChannelRec)
  period : Nat
  replyTimeout : Nat
  exchangeTimer : Timer
  round : Option Round
  failedMask : List Nat
  overrun : Bool
deriving DecidableEq, Repr

/-! ### Commitment Book -/

/-- A book entry in use (04, The book entry). -/
structure Entry where
  ref : Nat
  product : Product
  first : Nat
  count : Nat
  offered : Nat
  awarded : Option Nat
  state : EntryState
  uncovered : Nat
deriving DecidableEq, Repr

/-- A member of the change list (R75). -/
structure ChangeMember where
  entry : Nat
  causeState : Bool
  causeCover : Bool
deriving DecidableEq, Repr

/-- The endurance of each product, in seconds (R59). -/
structure ProductTable where
  fsr : Nat
  rsu : Nat
  rsd : Nat
deriving DecidableEq, Repr

/-- The Commitment Book (04): the entry numbers in use, the change list with its more flag, and the
product table. -/
structure Book where
  entries : List (Nat × Entry)
  changes : List ChangeMember
  more : Bool
  endurance : ProductTable
deriving DecidableEq, Repr

/-! ### Share Table -/

/-- A share record in use (R103). -/
structure ShareRec where
  num : Nat
  entry : Nat
  unit : Nat
  cls : DirClass
  power : Nat
  first : Nat
  last : Nat
deriving DecidableEq, Repr

/-! ### Headroom Evaluator -/

/-- A QUOTE that has passed its checks (R82). -/
structure QuoteReq where
  product : Product
  first : Nat
  count : Nat
deriving DecidableEq, Repr

/-- An OFFER that has passed its checks (R61). -/
structure OfferReq where
  ref : Nat
  product : Product
  first : Nat
  count : Nat
  quantity : Nat
  exact : Bool
deriving DecidableEq, Repr

/-- What waits in the TL job slot (R81). -/
inductive TlRequest where
  | quote (q : QuoteReq)
  | offer (o : OfferReq)
deriving DecidableEq, Repr

/-- A unit's figures in a frozen copy (R86). The number of records it holds is counted from the copy's
records. -/
structure FrozenUnit where
  contributing : Bool
  feeder : Nat
  energy : Nat
  soc : Nat
  floor : Nat
  ceiling : Nat
  eta : Nat
  pd : Nat
  pc : Nat
  confidence : Nat
deriving DecidableEq, Repr

/-- The frozen copy a job works on (R86), but for the entry of a replan, which `JobKind` holds. -/
structure Frozen where
  units : List (Nat × FrozenUnit)
  shares : List ShareRec
  feeders : List (Nat × FeederLimits)
  endurance : ProductTable
  holdback : Nat
  minShare : Nat
  slot : Nat
  start : Nat
  free : Nat
deriving DecidableEq, Repr

/-- The kind of a job, with its request or, for a replan, its entry as frozen (R86). -/
inductive JobKind where
  | quote (q : QuoteReq)
  | offer (o : OfferReq)
  | replan (number : Nat) (e : Entry)
deriving DecidableEq, Repr

/-- A continuation record a replan plans (R113): `after` is the record it continues. -/
structure Continuation where
  after : Nat
  unit : Nat
  power : Nat
  first : Nat
  last : Nat
deriving DecidableEq, Repr

/-- An enlargement a walk plans (R98). `target` is the record enlarged; a number from 32,768 on names
the continuation planned at that place. -/
structure Enlargement where
  target : Nat
  unit : Nat
  add : Nat
deriving DecidableEq, Repr

/-- What a job plans. An OFFER uses the walk's part alone; a QUOTE plans nothing. -/
structure Plan where
  /-- false for a replan whose entry is in its last slot or past it: it writes nothing (R111). -/
  works : Bool
  removed : List Nat
  cut : List Nat
  reduced : List (Nat × Nat)
  continuations : List Continuation
  enlarged : List Enlargement
  fresh : List (Nat × Nat)
  target : Nat
  placed : Nat
  poolStopped : Bool
  lastUnit : Option Nat
deriving DecidableEq, Repr

/-- The job in flight (R85 to R88), with the marks its completion reads. -/
structure Job where
  kind : JobKind
  frozen : Frozen
  plan : Plan
  disturbed : Bool
  boundaryTaken : Bool
  awardTaken : Bool
deriving DecidableEq, Repr

/-- The Headroom Evaluator (05). `replans` is the replan-pending set, ascending. -/
structure Evaluator where
  job : Option Job
  slot : Option TlRequest
  replans : List Nat
  runCount : Nat
  start : Nat
  holdback : Nat
  minShare : Nat
deriving DecidableEq, Repr

/-! ### Dispatcher -/

/-- The receiver of the frequency sample line (R179). -/
inductive SampleReceiver where
  | hunting
  | receiving (got : List Byte)
deriving DecidableEq, Repr

/-- The round figures of R141. -/
structure RoundFigures where
  method : Method
  aF : Int
  aU : Int
  aD : Int
  excessU : Bool
  excessD : Bool
  awardedU : Nat
  awardedD : Nat
  setpoints : List (Nat × Int)
  duties : List (Nat × List (Nat × Int))
  orphans : List (Nat × Int)
  orphan : Int
  shortfall : Int
  exportClamp : Int
  importClamp : Int
  liveUnits : Nat
  positiveSum : Int
  negativeSum : Int
deriving DecidableEq, Repr

/-- The Dispatcher (R121). -/
structure Dispatcher where
  sample : Option Int
  frequencyWatch : Timer
  freqLost : Bool
  deadband : Nat
  requestedU : Nat
  requestedD : Nat
  silenceTimer : Timer
  silent : Bool
  override : Override
  figures : Option RoundFigures
  receiver : SampleReceiver
deriving DecidableEq, Repr

/-! ### Delivery Tracker -/

/-- An accumulator (R143). -/
structure Accumulator where
  slot : Nat
  requestedUp : Nat
  requestedDown : Nat
  deliveredUp : Nat
  deliveredDown : Nat
  shortfallRounds : Nat
  overrideMark : Bool
deriving DecidableEq, Repr

/-- One entry of the round roll (R145). -/
structure RollEntry where
  entry : Nat
  product : Product
  awarded : Nat
deriving DecidableEq, Repr

/-- The round roll (R145). -/
structure Roll where
  entries : List RollEntry
  slot : Nat
  period : Nat
deriving DecidableEq, Repr

/-- A delivery record (R151). -/
structure DeliveryRecord where
  entry : Nat
  ref : Nat
  product : Product
  slot : Nat
  awarded : Nat
  requestedUp : Nat
  requestedDown : Nat
  deliveredUp : Nat
  deliveredDown : Nat
  shortfallRounds : Nat
  released : Bool
  override : Bool
  gapBefore : Bool
deriving DecidableEq, Repr

/-- The Delivery Tracker (R143). -/
structure Tracker where
  current : List (Nat × Accumulator)
  held : List (Nat × Accumulator)
  roll : Option Roll
  reported : List Nat
  queue : List DeliveryRecord
deriving DecidableEq, Repr

/-! ### Margin Monitor -/

/-- One direction of the Margin Monitor (R153). -/
structure MarginDir where
  obligation : Nat
  deliverable : Nat
  ratio : Nat
  state : MarginState
deriving DecidableEq, Repr

/-- The Margin Monitor (R153). -/
structure MarginMonitor where
  up : MarginDir
  down : MarginDir
  overall : MarginState
  warn : Nat
  short : Nat
  hysteresis : Nat
  lock : Bool
  mode : LineMode
  asserted : Bool
deriving DecidableEq, Repr

/-! ### Update Queue -/

/-- A setting with its field and value (R159). -/
inductive Setting where
  | floor (value : Nat)
  | ceiling (value : Nat)
  | excluded (value : Bool)
deriving DecidableEq, Repr

/-- An entry of the Update Queue (R159). -/
structure QueuedSetting where
  origin : Link
  unit : Nat
  setting : Setting
deriving DecidableEq, Repr

/-! ### Link Interface -/

/-- A link's receiver (R165): the bytes after the start byte, while within a frame. -/
inductive Receiver where
  | hunting
  | receiving (got : List Byte)
deriving DecidableEq, Repr

/-- The request in process on a link (R165). -/
structure InProcess where
  code : Byte
  tag : Byte
deriving DecidableEq, Repr

/-- An answer as its block formed it (R167, R177). -/
structure Answer where
  tag : Byte
  code : AnswerCode
  time : TimeStatus
  result : List Byte
deriving DecidableEq, Repr

/-- An owed answer; `ends` says that it answers the request in process (log 8). -/
structure OwedAnswer where
  answer : Answer
  ends : Bool
deriving DecidableEq, Repr

/-- What kind of frame a link's transmitter is sending (R165, R170). -/
inductive SentKind where
  | telegram
  | answer (ends : Bool)
  | busy
  | notice (kind : NoticeKind)
deriving DecidableEq, Repr

/-- A link's transmitter (R165), with the bytes of the frame it is sending. -/
inductive Transmitter where
  | free
  | sending (kind : SentKind) (wire : List Byte)
deriving DecidableEq, Repr

/-- The pending notice set: one flag for each kind (R165, R175). -/
structure NoticeFlags where
  entry : Bool
  margin : Bool
  channel : Bool
  freqLost : Bool
  operatorSilent : Bool
  timeMark : Bool
  records : Bool
  override : Bool
deriving DecidableEq, Repr

/-- A link record (R165). -/
structure LinkRec where
  receiver : Receiver
  inProcess : Option InProcess
  answers : List OwedAnswer
  busy : Option Answer
  telegram : Option Answer
  tx : Transmitter
  notices : NoticeFlags
deriving DecidableEq, Repr

/-- A unit map (R171): the limit and one permission mark for each unit index. -/
structure UnitMap where
  limit : Nat
  marks : BitVec 4096
deriving DecidableEq, Repr

/-- The Link Interface (10). -/
structure Links where
  tl : LinkRec
  gl : LinkRec
  fa : LinkRec
  fb : LinkRec
  mapA : UnitMap
  mapB : UnitMap
deriving DecidableEq, Repr

end Sys2Proof.Machine

namespace Sys2Proof.Machine

/-! ### The whole part -/

/-- The state of the part. `pending` is the queue of commands (log 1), `resetHeld` says that the reset
line is asserted (log 2), and `freeTick` counts the slot boundaries for the free value of log 6. -/
structure State where
  time : TimeBase
  fleet : UnitTable
  ctl : Controller
  book : Book
  eval : Evaluator
  shares : List ShareRec
  disp : Dispatcher
  track : Tracker
  margin : MarginMonitor
  queue : List QueuedSetting
  links : Links
  resetHeld : Bool
  freeTick : Nat
  pending : List Instr
deriving DecidableEq, Repr

/-- No command of the part stops it: errors are answers, discarded frames and state (INVENTORY, Faults).
The type has no constructor, so no fault can be raised. -/
inductive Fault where
deriving DecidableEq, Repr

/-- Why a command has no meaning. -/
inductive Refusal where
  /-- Raised by an arm of `exec` for a command that is not modelled yet. Safe: the machine stops. -/
  | notModelled (mnemonic : String)
deriving DecidableEq, Repr

/-! ### Reset values -/

/-- The unit record after reset (R10). -/
def UnitRec.reset : UnitRec :=
  { state := .empty, site := 0, feeder := 0, pd := 0, pc := 0, energy := 0, eta := 0, soc := 0,
    measured := 0, floor := 200, ceiling := 950, excluded := false, miss := 0, run := 0,
    catalogue := [], owesEvent := false }

/-- A feeder group after reset (R10). -/
def FeederLimits.reset : FeederLimits := { exportKw := 0, importKw := 0 }

/-- The empty sticky fault set. -/
def FaultSet.none : FaultSet :=
  { timeout := false, checkError := false, framing := false, extraData := false,
    watchdogBite := false, tooMany := false }

/-- A channel record after reset (R31). -/
def ChannelRec.reset : ChannelRec :=
  { state := .stopped, sticky := FaultSet.none, failures := 0, roster := [], discovery := none,
    line := .free, haltPending := false, armPending := false, exchangePending := false,
    fault := false }

/-- The empty pending notice set. -/
def NoticeFlags.none : NoticeFlags :=
  { entry := false, margin := false, channel := false, freqLost := false, operatorSilent := false,
    timeMark := false, records := false, override := false }

/-- A link record after reset (R165). -/
def LinkRec.reset : LinkRec :=
  { receiver := .hunting, inProcess := none, answers := [], busy := none, telegram := none,
    tx := .free, notices := NoticeFlags.none }

/-- A unit map after reset (R165, R171). -/
def UnitMap.reset : UnitMap := { limit := 0, marks := 0 }

/-- One direction of the Margin Monitor after reset (R153). -/
def MarginDir.reset : MarginDir := { obligation := 0, deliverable := 0, ratio := 9999, state := .sound }

/-- The machine right after the release of reset: every item at the value its chapter's table gives,
with the mark watch, the exchange timer and the frequency watch running (R3, R31, R121). -/
def State.reset : State :=
  { time := { timeSet := false, slot := 0, second := 0, holdover := false, markWatch := some 2000,
              holdoverTimer := none, gate := 4 }
    fleet := { units := [], feeders := [], lostLimit := 8 }
    ctl := { channels := [], period := 250, replyTimeout := 60, exchangeTimer := some 250,
             round := none, failedMask := [], overrun := false }
    book := { entries := [], changes := [], more := false,
              endurance := { fsr := 900, rsu := 900, rsd := 900 } }
    eval := { job := none, slot := none, replans := [], runCount := 0, start := 0, holdback := 50,
              minShare := 100 }
    shares := []
    disp := { sample := none, frequencyWatch := some 1000, freqLost := false, deadband := 10,
              requestedU := 0, requestedD := 0, silenceTimer := none, silent := false,
              override := .none, figures := none, receiver := .hunting }
    track := { current := [], held := [], roll := none, reported := [], queue := [] }
    margin := { up := MarginDir.reset, down := MarginDir.reset, overall := .sound, warn := 1200,
                short := 1000, hysteresis := 25, lock := false, mode := .level, asserted := false }
    queue := []
    links := { tl := LinkRec.reset, gl := LinkRec.reset, fa := LinkRec.reset, fb := LinkRec.reset,
               mapA := UnitMap.reset, mapB := UnitMap.reset }
    resetHeld := false
    freeTick := 0
    pending := [] }

end Sys2Proof.Machine
end

