-- ==== Sys2Proof/Machine/Ops.lean ====
section
/-! DEFINITION. The named operations on the part's tables and the one way each table of State is read
and written. -/

namespace Sys2Proof.Machine

/-! ### Tables: ascending lists of (number, record) -/

/-- The record listed under a number. -/
def tableFind {α : Type} : List (Nat × α) → Nat → Option α
  | [], _ => none
  | (k, v) :: t, i => if k = i then some v else tableFind t i

/-- Lists a record under a number, keeping the numbers ascending. -/
def tableInsert {α : Type} : List (Nat × α) → Nat → α → List (Nat × α)
  | [], i, v => [(i, v)]
  | (k, w) :: t, i, v =>
    if i < k then (i, v) :: (k, w) :: t
    else if i = k then (i, v) :: t
    else (k, w) :: tableInsert t i v

/-- Removes a number from the list. -/
def tableErase {α : Type} : List (Nat × α) → Nat → List (Nat × α)
  | [], _ => []
  | (k, w) :: t, i => if k = i then t else (k, w) :: tableErase t i

/-- The record of a number in a table whose unlisted numbers hold `d`. -/
def tableGet {α : Type} (d : α) (t : List (Nat × α)) (i : Nat) : α := (tableFind t i).getD d

/-- Writes the record of a number; a record equal to `d` is not listed. -/
def tableSet {α : Type} [DecidableEq α] (d : α) (t : List (Nat × α)) (i : Nat) (v : α) :
    List (Nat × α) :=
  if v = d then tableErase t i else tableInsert t i v

/-- Rewrites every listed record; a record that becomes `d` leaves the list. -/
def tableMap {α : Type} [DecidableEq α] (d : α) (f : Nat → α → α) (t : List (Nat × α)) :
    List (Nat × α) :=
  t.filterMap fun p => if f p.1 p.2 = d then none else some (p.1, f p.1 p.2)

/-- Adds a number to an ascending list of numbers that holds none twice. -/
def setInsert : List Nat → Nat → List Nat
  | [], i => [i]
  | k :: t, i => if i < k then i :: k :: t else if i = k then k :: t else k :: setInsert t i

/-- Adds every number of a list to an ascending list of numbers. -/
def setInsertAll (s : List Nat) (is : List Nat) : List Nat := is.foldl setInsert s

/-- Places a value in a list at its position by `le`, after the values it equals. -/
def insertBy {α : Type} (le : α → α → Bool) (v : α) : List α → List α
  | [] => [v]
  | w :: t => if le w v then w :: insertBy le v t else v :: w :: t

/-- A list in the order of `le`, values of equal rank in the order they had. -/
def sortBy {α : Type} (le : α → α → Bool) (l : List α) : List α :=
  l.foldl (fun acc v => insertBy le v acc) []

/-- A value held within bounds. -/
def clampInt (lo hi v : Int) : Int := max lo (min hi v)

/-- Division rounded up. -/
def ceilDiv (a b : Nat) : Nat := (a + b - 1) / b

/-! ### Reading and writing the state -/

/-- The time status as it stands (R7). -/
def timeStatus (s : State) : TimeStatus :=
  { timeSet := s.time.timeSet, holdover := s.time.holdover, slot := s.time.slot, second := s.time.second }

/-- The unit record at an index. A record exists for every index (02). -/
def unitOf (s : State) (i : Nat) : UnitRec := tableGet UnitRec.reset s.fleet.units i

/-- Writes the unit record at an index. -/
def setUnit (i : Nat) (u : UnitRec) (s : State) : State :=
  { s with fleet := { s.fleet with units := tableSet UnitRec.reset s.fleet.units i u } }

/-- A feeder group's limits. -/
def feederOf (s : State) (g : Nat) : FeederLimits := tableGet FeederLimits.reset s.fleet.feeders g

/-- Writes a feeder group's limits. -/
def setFeeder (g : Nat) (f : FeederLimits) (s : State) : State :=
  { s with fleet := { s.fleet with feeders := tableSet FeederLimits.reset s.fleet.feeders g f } }

/-- A channel record. -/
def channelOf (s : State) (c : Nat) : ChannelRec := tableGet ChannelRec.reset s.ctl.channels c

/-- Writes a channel record. -/
def setChannel (c : Nat) (r : ChannelRec) (s : State) : State :=
  { s with ctl := { s.ctl with channels := tableSet ChannelRec.reset s.ctl.channels c r } }

/-- The entry under an entry number; none when the number is free. -/
def entryOf (s : State) (e : Nat) : Option Entry := tableFind s.book.entries e

/-- Writes the entry under an entry number. -/
def setEntry (e : Nat) (x : Entry) (s : State) : State :=
  { s with book := { s.book with entries := tableInsert s.book.entries e x } }

/-- A link's record. -/
def linkOf (s : State) : Link → LinkRec
  | .tl => s.links.tl
  | .gl => s.links.gl
  | .fa => s.links.fa
  | .fb => s.links.fb

/-- Writes a link's record. -/
def setLink (l : Link) (r : LinkRec) (s : State) : State :=
  match l with
  | .tl => { s with links := { s.links with tl := r } }
  | .gl => { s with links := { s.links with gl := r } }
  | .fa => { s with links := { s.links with fa := r } }
  | .fb => { s with links := { s.links with fb := r } }

/-- Writes the share records in use. -/
def setShares (rs : List ShareRec) (s : State) : State := { s with shares := rs }

/-! ### Unit indices, spans and maps -/

/-- The channel of a unit index (00, Numbering). -/
def channelOfUnit (i : Nat) : Nat := i / Config.spanUnits

/-- The unit index of a drop on a channel (00, Numbering). -/
def unitIndex (c drop : Nat) : Nat := c * Config.spanUnits + drop

/-- A unit index is permitted by a map: below its limit with its mark set (R171). -/
def permitted (m : UnitMap) (i : Nat) : Bool := decide (i < m.limit) && m.marks.getLsbD i

/-- At least one unit of a channel's span is permitted (R171). -/
def mapTouches (m : UnitMap) (c : Nat) : Bool :=
  (List.range Config.spanUnits).any fun d => permitted m (unitIndex c d)

/-- All units of a channel's span are permitted (R171). -/
def mapCovers (m : UnitMap) (c : Nat) : Bool :=
  (List.range Config.spanUnits).all fun d => permitted m (unitIndex c d)

/-- The unit map of a fleet link; none for the other links. -/
def mapOf (s : State) : Link → Option UnitMap
  | .fa => some s.links.mapA
  | .fb => some s.links.mapB
  | .tl => none
  | .gl => none

/-- The class of a link (R165). -/
def classOf : Link → LinkClass
  | .tl => .market
  | .gl => .operator
  | .fa => .fleet
  | .fb => .fleet

/-! ### Entries, products, records -/

/-- The four non-terminal states, OFFERED, AWARDED, LOCKED and ACTIVE (04). -/
def nonTerminal : EntryState → Bool
  | .offered => true
  | .awarded => true
  | .locked => true
  | .active => true
  | .ended => false
  | .withdrawn => false
  | .lapsed => false
  | .released => false

/-- An entry's last slot: its first slot plus its slot count less one (04). -/
def lastSlot (e : Entry) : Nat := e.first + e.count - 1

/-- The direction class of a product (R59). -/
def classOfProduct : Product → DirClass
  | .fsr => .symmetric
  | .rsu => .up
  | .rsd => .down

/-- The product whose records have a direction class (R59, R103; log 26). -/
def productOfClass : DirClass → Product
  | .symmetric => .fsr
  | .up => .rsu
  | .down => .rsd

/-- A product's endurance (R59). -/
def enduranceOf (t : ProductTable) : Product → Nat
  | .fsr => t.fsr
  | .rsu => t.rsu
  | .rsd => t.rsd

/-- Sets a product's endurance (R60). -/
def setEndurance (t : ProductTable) (p : Product) (v : Nat) : ProductTable :=
  match p with
  | .fsr => { t with fsr := v }
  | .rsu => { t with rsu := v }
  | .rsd => { t with rsd := v }

/-- A record covers a slot (05, What one unit can offer). -/
def covers (r : ShareRec) (t : Nat) : Bool := decide (r.first ≤ t) && decide (t ≤ r.last)

/-- UP and SYMMETRIC records count in the up direction (R91). -/
def countsUp : DirClass → Bool
  | .up => true
  | .symmetric => true
  | .down => false

/-- DOWN and SYMMETRIC records count in the down direction (R92). -/
def countsDown : DirClass → Bool
  | .down => true
  | .symmetric => true
  | .up => false

/-- The entry's records, in allocation order (R106). -/
def entryRecords (rs : List ShareRec) (e : Nat) : List ShareRec := rs.filter fun r => r.entry == e

/-- The order of a per-unit list: first slot, then record number (R105). -/
def unitOrder (a b : ShareRec) : Bool :=
  decide (a.first < b.first) || (decide (a.first = b.first) && decide (a.num ≤ b.num))

/-- The unit's records, in the order of its per-unit list (R105). -/
def unitRecords (rs : List ShareRec) (u : Nat) : List ShareRec :=
  sortBy unitOrder (rs.filter fun r => r.unit == u)

/-- The sum of the powers of records. -/
def powerSum (rs : List ShareRec) : Nat := (rs.map ShareRec.power).sum

/-! ### Contribution -/

/-- The channel of a unit is RUNNING. -/
def onRunningChannel (s : State) (i : Nat) : Bool := decide ((channelOf s (channelOfUnit i)).state = .running)

/-- A unit is contributing, and live: READY, on a RUNNING channel, not excluded (R18). -/
def contributing (s : State) (i : Nat) : Bool :=
  decide ((unitOf s i).state = .ready) && onRunningChannel s i && !(unitOf s i).excluded

/-- The confidence factor k of a unit record (R19). -/
def confidence (u : UnitRec) : Nat :=
  if u.state = .lost then 0 else if u.miss ≤ 2 then 1000 else 500

end Sys2Proof.Machine
end

