-- ==== Sys2Proof/Machine/Flags.lean ====
section
/-! DEFINITION. The part's flags: pending notices (R175, R176), the replan-pending set (R83), the
disturbed mark of a running job (R87), sticky channel faults (R48), and the contribution events
(R20, R21). -/

namespace Sys2Proof.Machine

/-! ### Pending notices -/

/-- The flag of a notice kind. -/
def noticeGet (f : NoticeFlags) : NoticeKind → Bool
  | .entry => f.entry
  | .margin => f.margin
  | .channel => f.channel
  | .freqLost => f.freqLost
  | .operatorSilent => f.operatorSilent
  | .timeMark => f.timeMark
  | .records => f.records
  | .override => f.override

/-- Sets or clears the flag of a notice kind. -/
def noticeSet (f : NoticeFlags) (k : NoticeKind) (b : Bool) : NoticeFlags :=
  match k with
  | .entry => { f with entry := b }
  | .margin => { f with margin := b }
  | .channel => { f with channel := b }
  | .freqLost => { f with freqLost := b }
  | .operatorSilent => { f with operatorSilent := b }
  | .timeMark => { f with timeMark := b }
  | .records => { f with records := b }
  | .override => { f with override := b }

/-- The kind order of R175. -/
def kindOrder : List NoticeKind :=
  [.entry, .margin, .channel, .freqLost, .operatorSilent, .timeMark, .records, .override]

/-- Raises a kind towards one link: sets its flag (R175). -/
def raiseOn (l : Link) (k : NoticeKind) (s : State) : State :=
  setLink l { linkOf s l with notices := noticeSet (linkOf s l).notices k true } s

/-- Raises a kind towards TL and GL (R176). -/
def raiseTlGl (k : NoticeKind) (s : State) : State := raiseOn .gl k (raiseOn .tl k s)

/-- Raises the OVERRIDE kind towards all four links (R176). -/
def raiseOverride (s : State) : State :=
  raiseOn .fb .override (raiseOn .fa .override (raiseTlGl .override s))

/-- Raises the CHANNEL kind for a channel: towards TL, and towards FA and FB where the link's map
touches the channel's span when the kind is raised (R54, R176). -/
def raiseChannel (c : Nat) (s : State) : State :=
  let s := raiseOn .tl .channel s
  let s := if mapTouches s.links.mapA c then raiseOn .fa .channel s else s
  if mapTouches s.links.mapB c then raiseOn .fb .channel s else s

/-! ### The replan-pending set -/

/-- Sets the replan-pending flags of entry numbers (R83). -/
def markEntries (es : List Nat) (s : State) : State :=
  { s with eval := { s.eval with replans := setInsertAll s.eval.replans es } }

/-- Clears the replan-pending flag of an entry number (R68, R84). -/
def unmarkEntry (e : Nat) (s : State) : State :=
  { s with eval := { s.eval with replans := s.eval.replans.filter fun k => k ≠ e } }

/-- The entries in OFFERED, AWARDED, LOCKED or ACTIVE with a record that satisfies `p`. -/
def entriesWithRecord (s : State) (p : ShareRec → Bool) : List Nat :=
  (s.book.entries.filter fun q =>
    nonTerminal q.2.state && s.shares.any fun r => r.entry == q.1 && p r).map Prod.fst

/-- The entries in OFFERED, AWARDED, LOCKED or ACTIVE whose uncovered W is nonzero (R21, R41). -/
def uncoveredEntries (s : State) : List Nat :=
  (s.book.entries.filter fun q => nonTerminal q.2.state && decide (q.2.uncovered ≠ 0)).map Prod.fst

/-- Marks every non-terminal entry that has a record on a unit satisfying `p`. -/
def markOnUnits (p : Nat → Bool) (s : State) : State :=
  markEntries (entriesWithRecord s fun r => p r.unit) s

/-! ### The disturbed mark -/

/-- The units on which a plan places a new record or an enlargement (R87; log 25). -/
def plannedUnits (p : Plan) : List Nat :=
  p.fresh.map Prod.fst ++ p.enlarged.map Enlargement.unit ++ p.continuations.map Continuation.unit

/-- Marks the running job disturbed if it plans on a unit that satisfies `p` (R87). -/
def disturb (p : Nat → Bool) (s : State) : State :=
  match s.eval.job with
  | none => s
  | some j =>
    { s with eval := { s.eval with
        job := some { j with disturbed := j.disturbed || (plannedUnits j.plan).any p } } }

/-! ### Contribution events -/

/-- The contribution-lost event of a unit (R20, R87). -/
def contributionLost (u : Nat) (s : State) : State :=
  disturb (fun i => i == u) (markOnUnits (fun i => i == u) s)

/-- The contribution-gained event (R21). -/
def contributionGained (s : State) : State := markEntries (uncoveredEntries s) s

/-! ### Sticky faults -/

/-- The sticky fault set with one fault added, by the outcome's kind (R48); GOOD adds none. -/
def addFault (f : FaultSet) : ReplyOutcome → FaultSet
  | .good => f
  | .timeout => { f with timeout := true }
  | .checkError => { f with checkError := true }
  | .framing => { f with framing := true }
  | .extraData => { f with extraData := true }

/-- Writes a channel's sticky fault set, and raises a CHANNEL notice when it gains a member (R48, R54). -/
def setSticky (c : Nat) (f : FaultSet) (s : State) : State :=
  if f = (channelOf s c).sticky then s
  else raiseChannel c (setChannel c { channelOf s c with sticky := f } s)

end Sys2Proof.Machine
end

