-- ==== Sys2Proof/Machine/Operands.lean ====
section
/-! DEFINITION. Reading the fields of a request's contents, and the codes that stand in them (11).
Multi-byte fields go least significant byte first. -/

namespace Sys2Proof.Machine

/-- The number whose bytes, least significant first, are given. -/
def natOfBytes : List Byte → Nat
  | [] => 0
  | b :: t => b.toNat + 256 * natOfBytes t

/-- The unsigned field of `n` bytes at an offset of the contents. -/
def readU (c : List Byte) (offset n : Nat) : Nat := natOfBytes ((c.drop offset).take n)

/-- A number read as two's complement of `bits` bits. -/
def toSigned (bits v : Nat) : Int := if v < 2 ^ (bits - 1) then (v : Int) else (v : Int) - (2 : Int) ^ bits

/-- The signed field of `n` bytes at an offset. -/
def readS (c : List Byte) (offset n : Nat) : Int := toSigned (8 * n) (readU c offset n)

/-- Bit `i` of the byte at an offset. -/
def readBit (c : List Byte) (offset i : Nat) : Bool := (readU c offset 1).testBit i

/-- The product a code names. -/
def productOf : Nat → Option Product
  | 1 => some .fsr
  | 2 => some .rsu
  | 3 => some .rsd
  | _ => none

/-- The override kind a code names: HALT or FULL_UP (R129). -/
def overrideOf : Nat → Option Override
  | 1 => some .halt
  | 2 => some .fullUp
  | _ => none

/-- The fleet link a selector names (R173). -/
def selectorOf : Nat → Option Link
  | 1 => some .fa
  | 2 => some .fb
  | _ => none

/-- The setting that a SET names by its field code and value (R160): for EXCLUDED, 0 means clear and
any other value set. -/
def settingOf (field value : Nat) : Option Setting :=
  match field with
  | 1 => some (.floor value)
  | 2 => some (.ceiling value)
  | 3 => some (.excluded (decide (value ≠ 0)))
  | _ => none

/-- The channels that a mask byte names: bit n names channel n (R178). -/
def maskChannels (mask : Nat) : List Nat := (List.range 8).filter fun c => mask.testBit c

end Sys2Proof.Machine
end

