-- ==== Sys2Proof/Machine/Frames.lean ====
section
/-! DEFINITION. Frames on the wire: field widths, the check, master-link frames and their receiver,
channel frames and the sample frame's check (R166, R177, R179, R180). -/

namespace Sys2Proof.Machine

/-! ### Fields -/

/-- The low `n` bytes of a number, least significant first. -/
def leBytes : Nat → Nat → List Byte
  | 0, _ => []
  | n + 1, v => BitVec.ofNat 8 v :: leBytes n (v / 256)

/-- An unsigned field of `n` bytes. A value that does not fit it is a free value (log 10). -/
def putU (n v : Nat) : List Byte := leBytes n (if v < 256 ^ n then v else Config.overWide n v)

/-- A signed field of `n` bytes, two's complement. A value that does not fit it is a free value
(log 10). -/
def putS (n : Nat) (v : Int) : List Byte :=
  leBytes n (if -(2 : Int) ^ (8 * n - 1) ≤ v ∧ v < (2 : Int) ^ (8 * n - 1)
    then (v % (2 : Int) ^ (8 * n)).toNat else Config.overWide n v)

/-- A flags byte from its bits, bit 0 first. -/
def flagBits : List Bool → Nat
  | [] => 0
  | b :: t => (if b then 1 else 0) + 2 * flagBits t

/-- A flags byte (11: bits not named are sent as 0). -/
def putFlags (bs : List Bool) : List Byte := putU 1 (flagBits bs)

/-! ### The check (R177) -/

/-- One shift of the check register. -/
def crcShift (r : BitVec 16) : BitVec 16 :=
  if r.msb then (r <<< 1) ^^^ 0x1021#16 else r <<< 1

/-- One byte into the check register. -/
def crcByte (r : BitVec 16) (b : Byte) : BitVec 16 :=
  let x := r ^^^ (b.setWidth 16 <<< 8)
  crcShift (crcShift (crcShift (crcShift (crcShift (crcShift (crcShift (crcShift x)))))))

/-- The 16-bit cyclic check over bytes in sending order. -/
def crc16 (bs : List Byte) : BitVec 16 := bs.foldl crcByte 0xFFFF#16

/-- A frame: start byte, length, body, and the check over length and body, low byte first. -/
def wireFrame (start : Byte) (body : List Byte) : List Byte :=
  let covered := putU 2 body.length ++ body
  start :: covered ++ leBytes 2 (crc16 covered).toNat

/-- A master-link frame with its frame code and tag (R177). -/
def masterFrame (code tag : Byte) (contents : List Byte) : List Byte :=
  wireFrame Config.masterStart (code :: tag :: contents)

/-- A fleet channel frame with its kind (R180). -/
def channelWire (kind : Byte) (contents : List Byte) : List Byte :=
  wireFrame Config.channelStart (kind :: contents)

/-! ### The master-link receiver (R166) -/

/-- The bytes after a start byte, once one more has arrived: still within the frame, discarded, or a
received frame with its code, tag and contents. The bound on L is judged when both length bytes have
arrived (R177). -/
def receiveByte (got : List Byte) : Receiver × Option (Byte × Byte × List Byte) :=
  let len := readU got 0 2
  if got.length < 2 then (.receiving got, none)
  else if len < 2 ∨ 32 < len then (.hunting, none)
  else if got.length < len + 4 then (.receiving got, none)
  else if readU got (len + 2) 2 = (crc16 (got.take (len + 2))).toNat then
    (.hunting, some (got.getD 2 0, got.getD 3 0, (got.drop 4).take (len - 2)))
  else (.hunting, none)

/-- One character into a link's receiver (R166). -/
def receiveChar : Receiver → RxChar → Receiver × Option (Byte × Byte × List Byte)
  | .hunting, .ok b => if b = Config.masterStart then (.receiving [], none) else (.hunting, none)
  | .hunting, .bad => (.hunting, none)
  | .receiving _, .bad => (.hunting, none)
  | .receiving got, .ok b => receiveByte (got ++ [b])

/-! ### The sample line receiver (R179) -/

/-- One byte into the sample line's receiver: the new receiver and, when a frame is complete and its
check matches, the deviation it carries. -/
def receiveSampleByte (r : SampleReceiver) (b : Byte) : SampleReceiver × Option Int :=
  match r with
  | .hunting => if b = Config.sampleStart then (.receiving [], none) else (.hunting, none)
  | .receiving got =>
    let all := got ++ [b]
    if all.length < 4 then (.receiving all, none)
    else if readU all 2 2 = (crc16 (all.take 2)).toNat then (.hunting, some (readS all 0 2))
    else (.hunting, none)

/-! ### Codes (11, Field widths; R177; R178; R180) -/

/-- The value of an answer code (R177). -/
def answerCode : AnswerCode → Nat
  | .done => 0 | .busy => 1 | .denied => 2 | .badRequest => 3 | .badRange => 4 | .bookFull => 5
  | .duplicateRef => 6 | .noEntry => 7 | .wrongState => 8 | .noTime => 9 | .tooLate => 10
  | .locked => 11 | .recordsHeld => 12 | .overlap => 13 | .overrideActive => 14
  | .queueFull => 15 | .empty => 16 | .insufficient => 17 | .poolFull => 18

/-- Product codes. -/
def productCode : Product → Nat
  | .fsr => 1 | .rsu => 2 | .rsd => 3

/-- Direction class codes. -/
def dirCode : DirClass → Nat
  | .up => 1 | .down => 2 | .symmetric => 3

/-- Entry state codes. -/
def entryStateCode : EntryState → Nat
  | .offered => 1 | .awarded => 2 | .locked => 3 | .active => 4 | .ended => 5 | .withdrawn => 6
  | .lapsed => 7 | .released => 8

/-- Unit state codes. -/
def unitStateCode : UnitState → Nat
  | .empty => 0 | .probing => 1 | .ready => 2 | .rejected _ => 3 | .lost => 4

/-- Reject reason codes; none outside REJECTED. -/
def rejectCode : UnitState → Nat
  | .rejected .missingRecord => 1 | .rejected .badKind => 2 | .rejected .badWidth => 3
  | .rejected .badScale => 4 | .rejected .payloadTooLong => 5 | .rejected .badFeeder => 6
  | .empty => 0 | .probing => 0 | .ready => 0 | .lost => 0

/-- Channel state codes. -/
def channelStateCode : ChannelState → Nat
  | .stopped => 0 | .starting => 1 | .idling => 2 | .running => 3 | .faulted => 4

/-- Margin state codes. -/
def marginCode : MarginState → Nat
  | .sound => 0 | .thin => 1 | .short => 2

/-- Override codes. -/
def overrideCode : Override → Nat
  | .none => 0 | .halt => 1 | .fullUp => 2

/-- Line mode codes. -/
def lineModeCode : LineMode → Nat
  | .level => 1 | .latched => 2

/-- Method codes of the dispatch form. -/
def methodCode : Method → Nat
  | .zeroUnset => 0 | .zeroHalt => 0 | .fullUp => 1 | .normal => 2

/-- Codes of the Evaluator job in flight. -/
def jobCode : Option Job → Nat
  | none => 0
  | some j => match j.kind with
    | .quote _ => 1
    | .offer _ => 2
    | .replan _ _ => 3

/-- Discovery step codes of the channel status. -/
def stepCode : DiscoveryStep → Nat
  | .arm => 1 | .roster => 2 | .catalogue => 3

/-- Notice kinds, numbered in the kind order (R177). -/
def noticeCode : NoticeKind → Nat
  | .entry => 1 | .margin => 2 | .channel => 3 | .freqLost => 4 | .operatorSilent => 5
  | .timeMark => 6 | .records => 7 | .override => 8

/-- The time status as it stands in answers and notices (R177): flags, slot, second. -/
def putTime (t : TimeStatus) : List Byte :=
  putFlags [t.timeSet, t.holdover] ++ putU 4 t.slot ++ putU 2 t.second

/-- The wire bytes of an answer (R177). -/
def answerWire (a : Answer) : List Byte :=
  masterFrame 0x80#8 a.tag (putU 1 (answerCode a.code) ++ putTime a.time ++ a.result)

/-- The wire bytes of a notice: tag 0, the kind, the time status, the kind's contents (R177). -/
def noticeWire (k : NoticeKind) (t : TimeStatus) (contents : List Byte) : List Byte :=
  masterFrame 0x81#8 0#8 (putU 1 (noticeCode k) ++ putTime t ++ contents)

end Sys2Proof.Machine
end

