-- ==== Sys2Proof/Machine/Readout.lean ====
section
/-! DEFINITION. The read-out forms of the formats chapter (11, Read-out forms; Notice contents). -/

namespace Sys2Proof.Machine

/-- Entry summary, 22 bytes (R78). An absent awarded kW is sent as 0 (R178). -/
def entrySummary (s : State) (n : Nat) (e : Entry) : List Byte :=
  putU 2 n ++ putU 4 e.ref ++ putU 1 (productCode e.product) ++ putU 4 e.first ++ putU 1 e.count ++
    putU 2 e.offered ++ putU 2 (e.awarded.getD 0) ++ putU 1 (entryStateCode e.state) ++
    putS 4 e.uncovered ++ putFlags [s.eval.replans.contains n]

/-- Share record, 15 bytes (R79). -/
def shareForm (r : ShareRec) : List Byte :=
  putU 2 r.num ++ putU 2 r.unit ++ putU 1 (dirCode r.cls) ++ putU 2 r.power ++ putU 4 r.first ++
    putU 4 r.last

/-- Unit status, 33 bytes (R30). An EMPTY unit reads with every field 0 but its index and the number of
records it holds. -/
def unitStatus (s : State) (i : Nat) : List Byte :=
  let u := unitOf s i
  let held := (unitRecords s.shares i).length
  if u.state = .empty then
    putU 2 i ++ List.replicate 30 0#8 ++ putU 1 held
  else
    putU 2 i ++ putU 1 (unitStateCode u.state) ++ putU 1 (rejectCode u.state) ++
      putU 4 u.site.toNat ++ putU 1 u.feeder ++ putU 2 u.pd ++ putU 2 u.pc ++ putU 2 u.energy ++
      putU 2 u.eta ++ putU 2 u.soc ++ putS 4 u.measured ++ putU 2 u.floor ++ putU 2 u.ceiling ++
      putFlags [u.excluded, contributing s i] ++ putU 1 u.miss ++ putU 1 u.run ++
      putU 2 (confidence u) ++ putU 1 held

/-- Delivery record, 32 bytes (R151, R152). -/
def deliveryForm (r : DeliveryRecord) : List Byte :=
  putU 2 r.entry ++ putU 4 r.ref ++ putU 1 (productCode r.product) ++ putU 4 r.slot ++
    putU 2 r.awarded ++ putU 4 r.requestedUp ++ putU 4 r.requestedDown ++ putU 4 r.deliveredUp ++
    putU 4 r.deliveredDown ++ putU 2 r.shortfallRounds ++
    putFlags [r.released, r.override, r.gapBefore]

/-- Channel status, 10 bytes (R55). -/
def channelStatus (c : ChannelRec) : List Byte :=
  putU 1 (channelStateCode c.state) ++
    putFlags [c.sticky.timeout, c.sticky.checkError, c.sticky.framing, c.sticky.extraData,
      c.sticky.watchdogBite, c.sticky.tooMany] ++
    putU 1 c.failures ++ putU 2 c.roster.length ++ putFlags [c.fault] ++
    (match c.discovery with
      | none => putU 1 0 ++ putU 1 0 ++ putU 2 0
      | some d => putU 1 (stepCode d.step) ++ putU 1 d.attempt ++ putU 2 d.position)

/-- The statuses of channels 0 to 7, in order (R54, R55). -/
def channelStatuses (s : State) : List Byte :=
  (List.range 8).flatMap fun c => channelStatus (channelOf s c)

/-- A set of channels as a mask byte (R178: bit n names channel n). -/
def channelMask (cs : List Nat) : List Byte := putFlags ((List.range 8).map fun c => cs.contains c)

/-- One direction of the margin form. -/
def marginDirForm (d : MarginDir) : List Byte :=
  putS 4 d.obligation ++ putS 4 d.deliverable ++ putU 2 d.ratio ++ putU 1 (marginCode d.state)

/-- Margin form, 31 bytes (R156). -/
def marginForm (m : MarginMonitor) : List Byte :=
  marginDirForm m.up ++ marginDirForm m.down ++ putU 1 (marginCode m.overall) ++ putU 2 m.warn ++
    putU 2 m.short ++ putU 1 m.hysteresis ++ putU 1 (if m.lock then 1 else 0) ++
    putU 1 (lineModeCode m.mode) ++ putU 1 (if m.asserted then 1 else 0)

/-- The awarded kW of the ACTIVE entries of a product as they stand (R128, R142). -/
def awardedTotal (s : State) (p : Product) : Nat :=
  (s.book.entries.map fun q =>
    if q.2.state = .active ∧ q.2.product = p then q.2.awarded.getD 0 else 0).sum

/-- The round figures' part of the dispatch form (R141, R142): at most 512 orphaned entries are listed. -/
def figuresForm (f : RoundFigures) : List Byte :=
  putU 1 (methodCode f.method) ++ putS 2 f.aF ++ putS 2 f.aU ++ putS 2 f.aD ++
    putFlags [f.excessU, f.excessD] ++ putU 2 f.awardedU ++ putU 2 f.awardedD ++
    putS 4 f.orphan ++ putS 4 f.shortfall ++ putS 4 f.exportClamp ++ putS 4 f.importClamp ++
    putU 2 f.liveUnits ++ putS 4 f.positiveSum ++ putS 4 f.negativeSum ++
    putU 2 (f.orphans.take 512).length ++ putFlags [decide (512 < f.orphans.length)] ++
    (f.orphans.take 512).flatMap fun p => putU 2 p.1 ++ putS 4 p.2

/-- Dispatch form (R142). -/
def dispatchForm (s : State) : List Byte :=
  putU 1 (if s.disp.sample.isSome then 1 else 0) ++ putS 2 (s.disp.sample.getD 0) ++
    putU 1 (if s.disp.freqLost then 1 else 0) ++ putU 1 s.disp.deadband ++
    putU 2 s.disp.requestedU ++ putU 2 s.disp.requestedD ++
    putFlags [s.disp.silent, s.disp.silenceTimer.isSome] ++
    putU 1 (overrideCode s.disp.override) ++ putU 2 (awardedTotal s .rsu) ++
    putU 2 (awardedTotal s .rsd) ++
    (match s.disp.figures with
      | none => putU 1 0
      | some f => putU 1 1 ++ figuresForm f)

/-- A notice's contents after the time status, formed when its sending begins (R175). -/
def noticeContents (s : State) : NoticeKind → List Byte
  | .entry =>
    putU 1 s.book.changes.length ++ putFlags [s.book.more] ++
      s.book.changes.flatMap fun m => putU 2 m.entry ++ putFlags [m.causeState, m.causeCover]
  | .margin => marginForm s.margin
  | .channel => channelStatuses s
  | .freqLost =>
    putU 1 (if s.disp.freqLost then 1 else 0) ++ putU 1 (if s.disp.sample.isSome then 1 else 0) ++
      putS 2 (s.disp.sample.getD 0)
  | .operatorSilent =>
    putU 2 s.disp.requestedU ++ putU 2 s.disp.requestedD ++ putU 1 (if s.disp.silent then 1 else 0)
  | .timeMark => []
  | .records => putU 2 s.track.queue.length
  | .override => putU 1 (overrideCode s.disp.override)

end Sys2Proof.Machine
end

