-- ==== Sys2Proof/Machine/Delivery.lean ====
section
/-! DEFINITION. The Delivery Tracker: accumulators, the credits of a round, delivery records and their
queue (08, R143 to R152). -/

namespace Sys2Proof.Machine

/-- A fresh accumulator for a slot: every figure 0, the override mark clear (R144). -/
def freshAccumulator (t : Nat) : Accumulator :=
  { slot := t, requestedUp := 0, requestedDown := 0, deliveredUp := 0, deliveredDown := 0,
    shortfallRounds := 0, overrideMark := false }

/-- A W·ms figure in Wh, floored (R151). -/
def wattHours (wms : Nat) : Nat := wms / 3600000

/-- The delivery record of an accumulator, with the entry's reference, product and awarded kW as the
entry carries them (R151). -/
def formRecord (n : Nat) (e : Entry) (a : Accumulator) (released : Bool) : DeliveryRecord :=
  { entry := n, ref := e.ref, product := e.product, slot := a.slot, awarded := e.awarded.getD 0,
    requestedUp := wattHours a.requestedUp, requestedDown := wattHours a.requestedDown,
    deliveredUp := wattHours a.deliveredUp, deliveredDown := wattHours a.deliveredDown,
    shortfallRounds := a.shortfallRounds, released := released, override := a.overrideMark,
    gapBefore := false }

/-- Appends a record to the queue. A full queue loses its oldest record, and the new one carries
gap-before; an empty queue raises RECORDS towards TL (R151). -/
def appendRecord (r : DeliveryRecord) (s : State) : State :=
  let q := s.track.queue
  let q' := if Config.deliveryQueue ≤ q.length then q.drop 1 ++ [{ r with gapBefore := true }] else q ++ [r]
  let s' := { s with track := { s.track with queue := q' } }
  if q = [] then raiseOn .tl .records s' else s'

/-- Forms and queues the record of an entry's accumulator. -/
def emitRecord (n : Nat) (a : Accumulator) (released : Bool) (s : State) : State :=
  match entryOf s n with
  | none => s
  | some e => appendRecord (formRecord n e a released) s

/-! ### Opening and closing at a slot boundary -/

/-- Closes one current accumulator at the boundary into slot `t` (R149). It is held when the round in
flight began in slot t − 1; otherwise its record is emitted at once (log 13). -/
def closeAccumulator (t : Nat) (s : State) (p : Nat × Accumulator) : State :=
  if p.2.slot + 1 = t then
    let s := { s with track := { s.track with current := tableErase s.track.current p.1 } }
    match s.ctl.round, s.track.roll with
    | some _, some roll =>
      if roll.slot = p.2.slot then
        { s with track := { s.track with held := tableInsert s.track.held p.1 p.2 } }
      else emitRecord p.1 p.2 false s
    | _, _ => emitRecord p.1 p.2 false s
  else s

/-- Closes every current accumulator of the slot that ends, in ascending entry number (R149). -/
def closeAccumulators (t : Nat) (s : State) : State := s.track.current.foldl (closeAccumulator t) s

/-- Opens the current accumulator of every entry that is ACTIVE after the boundary's transitions (R144). -/
def openAccumulators (t : Nat) (s : State) : State :=
  s.book.entries.foldl (fun s p =>
    if p.2.state = .active then
      { s with track := { s.track with current := tableInsert s.track.current p.1 (freshAccumulator t) } }
    else s) s

/-! ### The credits of a round -/

/-- Changes the accumulator that a round of a slot credits for an entry: the held one with the round's
slot tag, else the current one with it, else none (R148). -/
def creditAccumulator (slot n : Nat) (f : Accumulator → Accumulator) (k : Tracker) : Tracker :=
  match tableFind k.held n with
  | some a =>
    if a.slot = slot then { k with held := tableInsert k.held n (f a) }
    else match tableFind k.current n with
      | some b => if b.slot = slot then { k with current := tableInsert k.current n (f b) } else k
      | none => k
  | none =>
    match tableFind k.current n with
    | some b => if b.slot = slot then { k with current := tableInsert k.current n (f b) } else k
    | none => k

/-- Adds requested energy, by its sign (R146). -/
def addRequested (wms : Int) (a : Accumulator) : Accumulator :=
  if 0 < wms then { a with requestedUp := a.requestedUp + wms.toNat }
  else { a with requestedDown := a.requestedDown + (-wms).toNat }

/-- Adds delivered energy, by its sign (R147). -/
def addDelivered (wms : Int) (a : Accumulator) : Accumulator :=
  if 0 < wms then { a with deliveredUp := a.deliveredUp + wms.toNat }
  else { a with deliveredDown := a.deliveredDown + (-wms).toNat }

/-- The fraction of a product in the round figures: a_F, a_U or −a_D (R133, R146). -/
def fractionOf (f : RoundFigures) : Product → Int
  | .fsr => f.aF
  | .rsu => f.aU
  | .rsd => -f.aD

/-- Credits requested energy to every entry of the roll (R146). -/
def creditRequested (roll : Roll) (f : RoundFigures) (k : Tracker) : Tracker :=
  roll.entries.foldl (fun k e =>
    creditAccumulator roll.slot e.entry
      (addRequested ((e.awarded : Int) * fractionOf f e.product * roll.period)) k) k

/-- What one reported unit attributes: for each pair of its duty list, truncate(m × d / D) W, and
nothing when D is 0 or m and D are not of one sign (R147). -/
def attribution (m : Int) (duty : List (Nat × Int)) : List (Nat × Int) :=
  let total := (duty.map Prod.snd).sum
  if (0 < m ∧ 0 < total) ∨ (m < 0 ∧ total < 0) then
    duty.map fun p => (p.1, Int.tdiv (m * p.2) total)
  else []

/-- Attributes measured power over the duty lists of the reported units, in a round of the normal method
(R147). -/
def creditDelivered (s : State) (roll : Roll) (f : RoundFigures) (k : Tracker) : Tracker :=
  if f.method = .normal then
    (s.track.reported.flatMap fun u =>
        attribution (unitOf s u).measured ((tableFind f.duties u).getD [])).foldl
      (fun k p => creditAccumulator roll.slot p.1 (addDelivered (p.2 * roll.period)) k) k
  else k

/-- Counts a shortfall round for every orphaned entry when the shortfall is not 0 (R148). -/
def creditShortfall (roll : Roll) (f : RoundFigures) (k : Tracker) : Tracker :=
  if f.shortfall = 0 then k
  else f.orphans.foldl (fun k p =>
    creditAccumulator roll.slot p.1
      (fun a => { a with shortfallRounds := min 3600 (a.shortfallRounds + 1) }) k) k

/-- Sets the override mark for every entry of the roll in a round under HALT or full up (R148). -/
def creditOverride (roll : Roll) (f : RoundFigures) (k : Tracker) : Tracker :=
  if f.method = .zeroHalt ∨ f.method = .fullUp then
    roll.entries.foldl (fun k e =>
      creditAccumulator roll.slot e.entry (fun a => { a with overrideMark := true }) k) k
  else k

/-- Emits the records of the held accumulators, in ascending entry number (R149, R150). -/
def emitHeld (s : State) : State :=
  let held := s.track.held
  held.foldl (fun s p => emitRecord p.1 p.2 false s) { s with track := { s.track with held := [] } }

/-- The Delivery Tracker takes a round's completion (R146 to R149). -/
def trackCompletion (s : State) : State :=
  let s := match s.track.roll, s.disp.figures with
    | some roll, some f =>
      { s with track :=
          creditOverride roll f (creditShortfall roll f
            (creditDelivered s roll f (creditRequested roll f s.track))) }
    | _, _ => s
  emitHeld { s with track := { s.track with roll := none } }

/-- Forms the round roll and empties the reported set at a round beginning (R145). -/
def formRoll (s : State) : State :=
  { s with track := { s.track with
      roll := some
        { entries := (s.book.entries.filter fun p => p.2.state == .active).map fun p =>
            { entry := p.1, product := p.2.product, awarded := p.2.awarded.getD 0 }
          slot := s.time.slot
          period := s.ctl.period }
      reported := [] } }

/-- Adds a unit to the reported set (R145). -/
def reportUnit (i : Nat) (s : State) : State :=
  { s with track := { s.track with reported := setInsert s.track.reported i } }

/-- Closes a released ACTIVE entry's current accumulator and queues its record flagged released (R150). -/
def emitReleased (n : Nat) (s : State) : State :=
  match tableFind s.track.current n with
  | none => s
  | some a =>
    emitRecord n a true { s with track := { s.track with current := tableErase s.track.current n } }

end Sys2Proof.Machine
end

