-- ==== Sys2Proof/Machine/Margin.lean ====
section
/-! DEFINITION. The Margin Monitor (08, R153 to R156): obligation, deliverable, ratio, states, line. -/

namespace Sys2Proof.Machine

/-- Energy above the floor, Wh: step 1 of R91. -/
def energyUp (soc floor energy : Nat) : Nat := (soc - floor) * energy / 1000

/-- Deliverable energy, Wh: step 2 of R91. -/
def deliverableUp (soc floor energy eta : Nat) : Nat := energyUp soc floor energy * eta / 1000

/-- Room below the ceiling, Wh: steps 1 and 2 of R92. -/
def absorbable (soc ceiling energy : Nat) : Nat := (ceiling - soc) * energy / 1000

/-- The live units of the part, in ascending index (R18). -/
def liveUnits (s : State) : List Nat := (s.fleet.units.map Prod.fst).filter (contributing s)

/-- The sum of awarded kW × 1000 over the ACTIVE entries whose product satisfies `p` (R154). -/
def obligationOf (s : State) (p : Product → Bool) : Nat :=
  (s.book.entries.map fun q =>
    if q.2.state = .active ∧ p q.2.product = true then q.2.awarded.getD 0 * 1000 else 0).sum

/-- The largest endurance among the products satisfying `p` with an ACTIVE entry; 0 when there is none
(R154). -/
def enduranceOver (s : State) (p : Product → Bool) : Nat :=
  ((s.book.entries.filter fun q => decide (q.2.state = .active) && p q.2.product).map fun q =>
    enduranceOf s.book.endurance q.2.product).foldl max 0

/-- A live unit's up figure (R154). -/
def unitFigureUp (u : UnitRec) (t : Nat) : Nat :=
  min (if u.floor < u.soc then u.pd else 0) (deliverableUp u.soc u.floor u.energy u.eta * 3600 / t)

/-- A live unit's down figure (R154). -/
def unitFigureDown (u : UnitRec) (t : Nat) : Nat :=
  min (if u.soc < u.ceiling then u.pc else 0) (absorbable u.soc u.ceiling u.energy * 3600 / t)

/-- The sum over the 64 groups of the live units' figures held to the group's limit (R154). -/
def deliverableOver (s : State) (figure : UnitRec → Nat) (limit : FeederLimits → Nat) : Nat :=
  ((List.range Config.feeders).map fun g =>
    min (limit (feederOf s g) * 1000)
      (((liveUnits s).filter fun i => (unitOf s i).feeder == g).map fun i => figure (unitOf s i)).sum).sum

/-- A direction's ratio (R154). -/
def marginRatio (deliverable obligation : Nat) : Nat :=
  if obligation = 0 then 9999 else min 9999 (deliverable * 1000 / obligation)

/-- A direction's state moved by its ratio (R155). -/
def moveState (warn short h : Nat) (before : MarginState) (m : Nat) : MarginState :=
  match before with
  | .sound => if m < short then .short else if m < warn then .thin else .sound
  | .thin => if m < short then .short else if warn + h ≤ m then .sound else .thin
  | .short => if warn + h ≤ m then .sound else if short + h ≤ m then .thin else .short

/-- SHORT is worse than THIN, THIN worse than SOUND (R156). -/
def marginRank : MarginState → Nat
  | .sound => 0
  | .thin => 1
  | .short => 2

/-- The worse of two states (R156). -/
def worse (a b : MarginState) : MarginState := if marginRank a ≤ marginRank b then b else a

/-- One direction computed at a round completion (R154, R155). -/
def computeDir (mon : MarginMonitor) (d : MarginDir) (obligation deliverable : Nat) : MarginDir :=
  let deliverable := if obligation = 0 then 0 else deliverable
  let m := marginRatio deliverable obligation
  { obligation := obligation, deliverable := deliverable, ratio := m,
    state := moveState mon.warn mon.short mon.hysteresis d.state m }

/-- FSR and RSU count up (R154). -/
def countsUpProduct (p : Product) : Bool := countsUp (classOfProduct p)

/-- FSR and RSD count down (R154). -/
def countsDownProduct (p : Product) : Bool := countsDown (classOfProduct p)

/-- The line after a completion that moved the overall state from `old` to `new` (R156). -/
def lineAfter (mode : LineMode) (line : Bool) (old new : MarginState) : Bool :=
  match mode with
  | .level => if old = new then line else decide (new ≠ .sound)
  | .latched => if marginRank old < marginRank new then true else line

/-- The monitor's figures and states at a round completion (R154 to R156). -/
def computeMargin (s : State) : MarginMonitor :=
  let m := s.margin
  let tUp := enduranceOver s countsUpProduct
  let tDn := enduranceOver s countsDownProduct
  let up := computeDir m m.up (obligationOf s countsUpProduct)
    (deliverableOver s (fun u => unitFigureUp u tUp) FeederLimits.exportKw)
  let down := computeDir m m.down (obligationOf s countsDownProduct)
    (deliverableOver s (fun u => unitFigureDown u tDn) FeederLimits.importKw)
  let overall := worse up.state down.state
  { m with up := up, down := down, overall := overall
           asserted := lineAfter m.mode m.asserted m.overall overall }

/-- The Margin Monitor takes a round's completion; a changed overall state raises MARGIN towards TL and
GL (R154 to R156). -/
def marginCompletion (s : State) : State :=
  let m := computeMargin s
  let s' := { s with margin := m }
  if m.overall = s.margin.overall then s' else raiseTlGl .margin s'

end Sys2Proof.Machine
end

