-- ==== Sys2Proof/Machine/Dispatcher.lean ====
section
/-! DEFINITION. The Dispatcher's round computation: fractions, bounds, the two passes, the feeder clamp,
quantising, full up, and the round figures (07, R124, R128, R131 to R141). -/

namespace Sys2Proof.Machine

/-! ### Fractions -/

/-- The FSR fraction from the held sample and the deadband (R124). -/
def fractionFsr (sample : Option Int) (deadband : Nat) : Int :=
  match sample with
  | none => 0
  | some d => if d.natAbs ≤ deadband then 0 else clampInt (-1000) 1000 (-5 * d)

/-- A restoration fraction from the requested kW and the awarded total (R128). -/
def fractionRestoration (requested awarded : Nat) : Nat :=
  if awarded = 0 then 0 else min 1000 (requested * 1000 / awarded)

/-! ### One unit's share of a round -/

/-- One unit's working figures while a round's setpoints are formed. -/
structure UnitShare where
  unit : Nat
  feeder : Nat
  live : Bool
  upper : Int
  lower : Int
  setpoint : Int
  duty : List (Nat × Int)
  orphan : List (Nat × Int)
deriving DecidableEq, Repr

/-- The upper bound U of a unit (R132). -/
def upperBound (s : State) (i : Nat) : Int :=
  if contributing s i ∧ (unitOf s i).floor < (unitOf s i).soc then (unitOf s i).pd else 0

/-- The lower bound L of a unit (R132). -/
def lowerBound (s : State) (i : Nat) : Int :=
  if contributing s i ∧ (unitOf s i).soc < (unitOf s i).ceiling then -((unitOf s i).pc : Int) else 0

/-- The share of a record: truncate(p × a / 1000) (R133). -/
def recordShare (power : Nat) (a : Int) : Int := Int.tdiv (power * a) 1000

/-- A unit's pairs: one for each record of an ACTIVE entry that covers the current slot, in the order of
its per-unit list (R133). -/
def unitPairs (s : State) (fraction : Product → Int) (i : Nat) : List (Nat × Int) :=
  (unitRecords s.shares i).filterMap fun r =>
    match entryOf s r.entry with
    | none => none
    | some e =>
      if e.state = .active ∧ covers r s.time.slot = true then
        some (r.entry, recordShare r.power (fraction e.product))
      else none

/-- The sum of the powers of pairs. -/
def pairSum (ps : List (Nat × Int)) : Int := (ps.map Prod.snd).sum

/-- The pairs with those that satisfy `p` scaled to truncate(c × τ / total) (R134). -/
def scalePairs (p : Int → Bool) (tau total : Int) (ps : List (Nat × Int)) : List (Nat × Int) :=
  ps.map fun q => if p q.2 then (q.1, Int.tdiv (q.2 * tau) total) else q

/-- The parts of the pairs that were not carried (R134). -/
def uncarried (ps carried : List (Nat × Int)) : List (Nat × Int) :=
  List.zipWith (fun p q => (p.1, p.2 - q.2)) ps carried

/-- Pass 1 for one unit: its pairs compared with its bounds (R133, R134). -/
def firstPass (s : State) (fraction : Product → Int) (i : Nat) : UnitShare :=
  let ps := unitPairs s fraction i
  let raw := pairSum ps
  let up := upperBound s i
  let lo := lowerBound s i
  let base : UnitShare :=
    { unit := i, feeder := (unitOf s i).feeder, live := contributing s i, upper := up, lower := lo,
      setpoint := 0, duty := [], orphan := [] }
  if contributing s i = false then { base with orphan := ps }
  else if up < raw then
    let total := pairSum (ps.filter fun p => decide (0 < p.2))
    let carried := scalePairs (fun c => decide (0 < c)) (total - (raw - up)) total ps
    { base with setpoint := pairSum carried, duty := carried.filter (fun p => decide (p.2 ≠ 0)),
                orphan := uncarried ps carried }
  else if raw < lo then
    let total := -pairSum (ps.filter fun p => decide (p.2 < 0))
    let carried := scalePairs (fun c => decide (c < 0)) (total - (lo - raw)) total ps
    { base with setpoint := pairSum carried, duty := carried.filter (fun p => decide (p.2 ≠ 0)),
                orphan := uncarried ps carried }
  else { base with setpoint := raw, duty := ps }

/-! ### The orphan -/

/-- Adds a power to an entry's total in an ascending list. -/
def addTotal (t : List (Nat × Int)) (p : Nat × Int) : List (Nat × Int) :=
  tableInsert t p.1 (tableGet 0 t p.1 + p.2)

/-- Each entry's orphan part O_e over all units (R134). -/
def orphanParts (us : List UnitShare) : List (Nat × Int) :=
  (us.flatMap UnitShare.orphan).foldl addTotal []

/-- A unit's spare in the direction of the orphan: U − s1 upward, L − s1 downward, and 0 for a unit that
takes no part (R135, R136). -/
def spareOf (orphan : Int) (u : UnitShare) : Int :=
  if u.live = false then 0
  else if 0 < orphan then max 0 (u.upper - u.setpoint)
  else if orphan < 0 then min 0 (u.lower - u.setpoint)
  else 0

/-- The power added to a taking unit: its whole spare when the spare of all is no more than the orphan,
else the orphan's part in proportion, floored in magnitude (R135, R136). -/
def addedPower (orphan total spare : Int) : Int :=
  if total.natAbs ≤ orphan.natAbs then spare
  else if 0 < orphan then Int.fdiv (orphan * spare) total
  else -Int.fdiv (orphan.natAbs * spare.natAbs) total.natAbs

/-- The duty list with an entry's part of the added power: its pair is raised, or a pair appended; a part
of 0 gives none (R137). -/
def raiseDuty (duty : List (Nat × Int)) (p : Nat × Int) : List (Nat × Int) :=
  if p.2 = 0 then duty
  else if duty.any (fun q => q.1 == p.1) then
    duty.map fun q => if q.1 = p.1 then (q.1, q.2 + p.2) else q
  else duty ++ [p]

/-- The duty list after the added power is shared out among the orphaned entries (R137). -/
def shareOut (added orphan : Int) (orphans duty : List (Nat × Int)) : List (Nat × Int) :=
  (orphans.map fun p => (p.1, Int.tdiv (added * p.2) orphan)).foldl raiseDuty duty

/-- Pass 2: the orphan placed on live units with room (R135 to R137). -/
def secondPass (orphans : List (Nat × Int)) (orphan : Int) (us : List UnitShare) : List UnitShare :=
  let total := (us.map (spareOf orphan)).sum
  us.map fun u =>
    let added := addedPower orphan total (spareOf orphan u)
    if orphan = 0 then u
    else { u with setpoint := u.setpoint + added, duty := shareOut added orphan orphans u.duty }

/-- The dispatch shortfall: the magnitude of the orphan less that of the powers added (R135, R136). -/
def shortfallOf (orphan : Int) (us : List UnitShare) : Int :=
  if orphan = 0 then 0
  else
    let total := (us.map (spareOf orphan)).sum
    (orphan.natAbs : Int) - ((us.map fun u => addedPower orphan total (spareOf orphan u)).sum).natAbs

/-! ### The feeder clamp and quantising -/

/-- The sum of the positive setpoints of a group (R138). -/
def groupExport (us : List UnitShare) (g : Nat) : Int :=
  ((us.filter fun u => u.feeder == g).map fun u => max 0 u.setpoint).sum

/-- The magnitude of the sum of the negative setpoints of a group (R138). -/
def groupImport (us : List UnitShare) (g : Nat) : Int :=
  ((us.filter fun u => u.feeder == g).map fun u => max 0 (-u.setpoint)).sum

/-- A duty list scaled by a ratio, with truncation (R138). -/
def scaleDuty (num den : Int) (duty : List (Nat × Int)) : List (Nat × Int) :=
  duty.map fun p => (p.1, Int.tdiv (p.2 * num) den)

/-- One unit after the clamp of its group (R138). -/
def clampUnit (s : State) (us : List UnitShare) (u : UnitShare) : UnitShare :=
  let limits := feederOf s u.feeder
  let ex : Int := limits.exportKw * 1000
  let im : Int := limits.importKw * 1000
  let pe := groupExport us u.feeder
  let pi := groupImport us u.feeder
  if 0 < u.setpoint ∧ ex < pe then
    { u with setpoint := Int.fdiv (u.setpoint * ex) pe, duty := scaleDuty ex pe u.duty }
  else if u.setpoint < 0 ∧ im < pi then
    { u with setpoint := -Int.fdiv (-u.setpoint * im) pi, duty := scaleDuty im pi u.duty }
  else u

/-- Truncation toward zero to a multiple of 10 W; a duty list whose pairs are all 0 is empty (R139). -/
def quantise (u : UnitShare) : UnitShare :=
  { u with setpoint := Int.tdiv u.setpoint 10 * 10
           duty := if u.duty.all (fun p => decide (p.2 = 0)) then [] else u.duty }

/-- The sum of the positive setpoints. -/
def positiveSum (us : List UnitShare) : Int := (us.map fun u => max 0 u.setpoint).sum

/-- The sum of the negative setpoints. -/
def negativeSum (us : List UnitShare) : Int := (us.map fun u => min 0 u.setpoint).sum

/-! ### The round figures -/

/-- The method of a round (R131). -/
def methodOf (timeSet : Bool) (o : Override) : Method :=
  if timeSet = false then .zeroUnset
  else match o with
    | .halt => .zeroHalt
    | .fullUp => .fullUp
    | .none => .normal

/-- The units a round may give power or find records on: those with a record of their own in the table
and those that hold a share record, in ascending index. -/
def unitsInPlay (s : State) : List Nat :=
  setInsertAll (s.fleet.units.map Prod.fst) (s.shares.map ShareRec.unit)

/-- The figures of a round before its setpoints: fractions, totals, flags, live count (R124, R128, R141). -/
def baseFigures (s : State) : RoundFigures :=
  let aU := awardedTotal s .rsu
  let aD := awardedTotal s .rsd
  { method := methodOf s.time.timeSet s.disp.override
    aF := fractionFsr s.disp.sample s.disp.deadband
    aU := fractionRestoration s.disp.requestedU aU
    aD := fractionRestoration s.disp.requestedD aD
    excessU := decide (aU < s.disp.requestedU)
    excessD := decide (aD < s.disp.requestedD)
    awardedU := aU
    awardedD := aD
    setpoints := []
    duties := []
    orphans := []
    orphan := 0
    shortfall := 0
    exportClamp := 0
    importClamp := 0
    liveUnits := (liveUnits s).length
    positiveSum := 0
    negativeSum := 0 }

/-- The figures with the setpoints as sent, the duty lists and the clamp totals (R138, R139, R141). -/
def finishFigures (s : State) (f : RoundFigures) (us : List UnitShare) : RoundFigures :=
  let clamped := us.map (clampUnit s us)
  let sent := clamped.map quantise
  { f with
    setpoints := (sent.filter fun u => decide (u.setpoint ≠ 0)).map fun u => (u.unit, u.setpoint)
    duties := (sent.filter fun u => !u.duty.isEmpty).map fun u => (u.unit, u.duty)
    exportClamp := positiveSum us - positiveSum clamped
    importClamp := negativeSum clamped - negativeSum us
    positiveSum := positiveSum sent
    negativeSum := negativeSum sent }

/-- The normal method (R132 to R139). -/
def normalFigures (s : State) (f : RoundFigures) : RoundFigures :=
  let first := (unitsInPlay s).map (firstPass s (fractionOf f))
  let orphans := (orphanParts first).filter fun p => decide (p.2 ≠ 0)
  let orphan := pairSum orphans
  finishFigures s
    { f with orphans := orphans, orphan := orphan, shortfall := shortfallOf orphan first }
    (secondPass orphans orphan first)

/-- The full-up method: every live unit at its upper bound, no duty lists (R140). -/
def fullUpFigures (s : State) (f : RoundFigures) : RoundFigures :=
  finishFigures s f ((liveUnits s).map fun i =>
    { unit := i, feeder := (unitOf s i).feeder, live := true, upper := upperBound s i,
      lower := lowerBound s i, setpoint := upperBound s i, duty := [], orphan := [] })

/-- The round figures formed at a round beginning (R131, R141). -/
def formFigures (s : State) : RoundFigures :=
  let f := baseFigures s
  match f.method with
  | .zeroUnset => f
  | .zeroHalt => f
  | .fullUp => fullUpFigures s f
  | .normal => normalFigures s f

/-- The setpoint formed for a unit in the last round begun. -/
def setpointOf (s : State) (i : Nat) : Int :=
  match s.disp.figures with
  | none => 0
  | some f => tableGet 0 f.setpoints i

end Sys2Proof.Machine
end

