-- ==== Sys2Proof/Machine/Scaling.lean ====
section
/-! DEFINITION. Scaling between raw fields and engineering values (02, Scaling; R13; R26 to R29), and the
setpoint field of an EXCHANGE frame (R45). -/

namespace Sys2Proof.Machine

/-- An unsigned field decoded: min + floor(r × (max − min) / (2^w − 1)) (R27). -/
def decodeUnsigned (w : Nat) (lo hi : Int) (r : Nat) : Int :=
  lo + Int.fdiv ((r : Int) * (hi - lo)) ((2 : Int) ^ w - 1)

/-- A signed field decoded: truncate(r × max / (2^(w−1) − 1)), the most negative raw value as −max
(R28). `r` is the field read as an unsigned number of w bits. -/
def decodeSigned (w : Nat) (hi : Int) (r : Nat) : Int :=
  let v := toSigned w r
  if v = -(2 : Int) ^ (w - 1) then -hi else Int.tdiv (v * hi) ((2 : Int) ^ (w - 1) - 1)

/-- A setpoint encoded on a signed scale: truncate(setpoint × (2^(w−1) − 1) / max), clamped (R29). -/
def encodeSetpoint (w : Nat) (hi : Int) (setpoint : Int) : Int :=
  let top := (2 : Int) ^ (w - 1) - 1
  clampInt (-top) top (Int.tdiv (setpoint * top) hi)

/-- The records of a catalogue that are REPORTED, in catalogue order. -/
def reportedRecords (cat : List Descriptor) : List Descriptor := cat.filter fun d => d.dir == .reported

/-- The sum of the REPORTED widths (R47). -/
def reportedWidth (cat : List Descriptor) : Nat := ((reportedRecords cat).map Descriptor.width).sum

/-- The record of a kind in a catalogue. -/
def recordOf (cat : List Descriptor) (k : DescKind) : Option Descriptor := cat.find? fun d => d.kind == k

/-- The raw value of the first REPORTED record of a kind in telemetry bits, the first record's field
lowest, with its record (R26). -/
def reportedField (k : DescKind) : List Descriptor → Nat → Option (Descriptor × Nat)
  | [], _ => none
  | d :: t, bits =>
    if d.kind = k then some (d, bits % 2 ^ d.width) else reportedField k t (bits / 2 ^ d.width)

/-- The SoC that telemetry bits carry: decoded, then clamped to 0..1000 (R26, R27). -/
def reportedSoc (cat : List Descriptor) (bits : Nat) : Option Nat :=
  (reportedField .soc (reportedRecords cat) bits).map fun p =>
    (clampInt 0 1000 (decodeUnsigned p.1.width p.1.min p.1.max p.2)).toNat

/-- The measured power that telemetry bits carry (R26, R28). -/
def reportedPower (cat : List Descriptor) (bits : Nat) : Option Int :=
  (reportedField .measuredPower (reportedRecords cat) bits).map fun p =>
    decodeSigned p.1.width p.1.max p.2

/-- The site identifier of a catalogue: over the characters of its names, multiply by 33, add the
character, keep 32 bits (R13). -/
def siteIdentifier (cat : List Descriptor) : BitVec 32 :=
  (cat.flatMap Descriptor.name).foldl (fun (a : BitVec 32) b => a * 33#32 + b.setWidth 32) 0#32

/-- A raw setpoint of `w` bits in ceil(w / 8) bytes, least significant first, sign-filled (R45). -/
def rawBytes (w : Nat) (raw : Int) : List Byte :=
  let n := ceilDiv w 8
  leBytes n (raw % (2 : Int) ^ (8 * n)).toNat

/-- The setpoint field of one drop: the width of the unit's SETPOINT record and the encoded setpoint, or
width 0 with no bits where the unit has no catalogue copy (R45). -/
def setpointField (u : UnitRec) (setpoint : Int) : List Byte :=
  match recordOf u.catalogue .setpoint with
  | none => putU 1 0
  | some d => putU 1 d.width ++ rawBytes d.width (encodeSetpoint d.width d.max setpoint)

end Sys2Proof.Machine
end

