-- ==== Sys2Proof/Machine/Units.lean ====
section
/-! DEFINITION. The Unit Table's operations: catalogue outcomes, drop reports, the lost limit, STOP, and
the owner's limits (02, R11 to R17; 09, R161, R162). -/

namespace Sys2Proof.Machine

/-! ### Catalogue outcomes -/

/-- The fixed value of a kind's record, clamped, or a default where the catalogue has none (R11). -/
def ratedValue (cat : List Descriptor) (k : DescKind) (lo hi : Int) (default : Nat) : Nat :=
  match recordOf cat k with
  | none => default
  | some d => (clampInt lo hi (d.fixedValue.getD 0)).toNat

/-- The unit record that an accepted catalogue fills (R11). -/
def acceptedUnit (cat : List Descriptor) : UnitRec :=
  { state := .probing
    site := siteIdentifier cat
    feeder := ratedValue cat .feeder 0 63 0
    pd := ratedValue cat .dischargePower 0 30000 0
    pc := ratedValue cat .chargePower 0 30000 0
    energy := ratedValue cat .energy 1 60000 0
    eta := ratedValue cat .efficiency 500 1000 950
    soc := 0
    measured := 0
    floor := 200
    ceiling := 950
    excluded := false
    miss := 0
    run := 0
    catalogue := cat
    owesEvent := false }

/-- Discovery accepts a unit's catalogue (R11). -/
def acceptCatalogue (i : Nat) (cat : List Descriptor) (s : State) : State := setUnit i (acceptedUnit cat) s

/-- Discovery rejects a unit's catalogue: REJECTED with its reason, Pd and Pc 0, every other field as it
was (R12). -/
def rejectCatalogue (i : Nat) (reason : RejectReason) (s : State) : State :=
  setUnit i { unitOf s i with state := .rejected reason, pd := 0, pc := 0, catalogue := [] } s

/-! ### Catalogue validation (R38) -/

/-- Check 2 for one record: a known kind in the direction it allows. -/
def kindAllowed (d : Descriptor) : Bool :=
  match d.kind with
  | .soc => d.dir == .reported
  | .measuredPower => d.dir == .reported
  | .pad => d.dir == .reported
  | .setpoint => d.dir == .commanded
  | .energy => d.dir == .fixed
  | .feeder => d.dir == .fixed
  | .dischargePower => d.dir == .fixed
  | .chargePower => d.dir == .fixed
  | .efficiency => d.dir == .fixed
  | .unknown _ => false

/-- Check 3: no kind other than PAD appears twice. -/
def kindsOnce : List Descriptor → Bool
  | [] => true
  | d :: t => (d.kind == .pad || !t.any fun e => e.kind == d.kind) && kindsOnce t

/-- Check 4 for one record: FIXED records carry a fixed value, others none. -/
def fixedFits (d : Descriptor) : Bool := (d.dir == .fixed) == d.fixedValue.isSome

/-- Check 5 for one record: REPORTED and COMMANDED records have a raw width of 1 to 32. -/
def widthFits (d : Descriptor) : Bool := d.dir == .fixed || (decide (1 ≤ d.width) && decide (d.width ≤ 32))

/-- Check 7 for one record: the scale requirement of its kind (02, Scaling). -/
def scaleFits (d : Descriptor) : Bool :=
  match d.kind with
  | .soc => decide (d.min ≤ d.max)
  | .measuredPower => decide (2 ≤ d.width) && decide (0 < d.max) && decide (d.min = -d.max)
  | .setpoint => decide (2 ≤ d.width) && decide (0 < d.max) && decide (d.min = -d.max)
  | .energy => true
  | .feeder => true
  | .dischargePower => true
  | .chargePower => true
  | .efficiency => true
  | .pad => true
  | .unknown _ => true

/-- Check 6: the kinds that must be present. -/
def requiredPresent (cat : List Descriptor) : Bool :=
  [DescKind.soc, .measuredPower, .setpoint, .energy, .feeder].all fun k => (recordOf cat k).isSome

/-- Check 9: the fixed value of the FEEDER record lies in 0..63. -/
def feederFits (cat : List Descriptor) : Bool :=
  match recordOf cat .feeder with
  | none => true
  | some d => decide (0 ≤ d.fixedValue.getD 0) && decide (d.fixedValue.getD 0 ≤ 63)

/-- The first check of R38 that a complete catalogue fails, by its reason; none when it is accepted. -/
def catalogueFault (cat : List Descriptor) : Option RejectReason :=
  if cat.isEmpty then some .missingRecord
  else if !cat.all kindAllowed then some .badKind
  else if !kindsOnce cat then some .badKind
  else if !cat.all fixedFits then some .badKind
  else if !cat.all widthFits then some .badWidth
  else if !requiredPresent cat then some .missingRecord
  else if !cat.all scaleFits then some .badScale
  else if 128 < reportedWidth cat then some .payloadTooLong
  else if !feederFits cat then some .badFeeder
  else none

/-- A complete catalogue taken: accepted or rejected (R37, R38). -/
def takeCatalogue (i : Nat) (cat : List Descriptor) (s : State) : State :=
  match catalogueFault cat with
  | none => acceptCatalogue i cat s
  | some reason => rejectCatalogue i reason s

/-! ### Drop reports -/

/-- A good report for a unit in PROBING, READY or LOST: telemetry decoded, the miss count 0, then the
effect of its state (R14). A unit that owes the event of its exclusion raises it when it would otherwise become
contributing (R162; log 35). -/
def goodReport (i bits : Nat) (s : State) : State :=
  let u := unitOf s i
  let v := { u with soc := (reportedSoc u.catalogue bits).getD u.soc
                    measured := (reportedPower u.catalogue bits).getD u.measured
                    miss := 0 }
  match u.state with
  | .probing =>
    if u.run = 0 then setUnit i { v with run := 1 } s
    else
      let owed := u.owesEvent && onRunningChannel s i
      let s := setUnit i
        { v with run := 0, state := .ready, owesEvent := u.owesEvent && !onRunningChannel s i } s
      if contributing s i then contributionGained s
      else if owed then contributionLost i s
      else s
  | .ready => setUnit i v s
  | .lost => setUnit i { v with state := .probing, run := 1 } s
  | .empty => s
  | .rejected _ => s

/-- A missing report for a unit in PROBING, READY or LOST (R15). -/
def missingReport (i : Nat) (s : State) : State :=
  let u := unitOf s i
  match u.state with
  | .probing =>
    setUnit i { u with run := 0, miss := u.miss + 1
                       state := if u.miss + 1 = s.fleet.lostLimit then .lost else .probing } s
  | .ready =>
    if u.miss + 1 = s.fleet.lostLimit then
      let s' := setUnit i { u with miss := u.miss + 1, state := .lost } s
      if contributing s i then contributionLost i s' else s'
    else setUnit i { u with miss := u.miss + 1 } s
  | .lost => s
  | .empty => s
  | .rejected _ => s

/-! ### The lost limit (R17) -/

/-- One unit under a new lost limit: a READY or PROBING unit at or above it becomes LOST with its miss
count at the limit, a LOST unit above it takes it. -/
def underLimit (limit : Nat) (u : UnitRec) : UnitRec :=
  match u.state with
  | .probing => if limit ≤ u.miss then { u with state := .lost, miss := limit } else u
  | .ready => if limit ≤ u.miss then { u with state := .lost, miss := limit } else u
  | .lost => if limit < u.miss then { u with miss := limit } else u
  | .empty => u
  | .rejected _ => u

/-- A new lost limit acts on every unit at once, and every contributing unit it takes to LOST raises its
contribution-lost event. -/
def applyLostLimit (limit : Nat) (s : State) : State :=
  let gone := (s.fleet.units.filter fun p =>
    contributing s p.1 && decide ((underLimit limit p.2).state = .lost)).map Prod.fst
  let s' := { s with fleet := { s.fleet with
      lostLimit := limit, units := tableMap UnitRec.reset (fun _ u => underLimit limit u) s.fleet.units } }
  gone.foldl (fun s i => contributionLost i s) s'

/-! ### STOP (R16) -/

/-- A unit record emptied by STOP: the reset values, with Pd and Pc kept. -/
def emptied (u : UnitRec) : UnitRec := { UnitRec.reset with pd := u.pd, pc := u.pc }

/-- Every unit of a channel's span becomes EMPTY. -/
def emptySpan (c : Nat) (s : State) : State :=
  { s with fleet := { s.fleet with
      units := tableMap UnitRec.reset (fun i u => if channelOfUnit i = c then emptied u else u)
        s.fleet.units } }

/-! ### The owner's settings (R161, R162) -/

/-- A FLOOR value applied: held to 900, the ceiling raised to leave a band of 100. -/
def applyFloor (v : Nat) (u : UnitRec) : UnitRec :=
  { u with floor := min v 900, ceiling := max u.ceiling (min v 900 + 100) }

/-- A CEILING value applied: held to 100..1000, the floor lowered to leave a band of 100. -/
def applyCeiling (v : Nat) (u : UnitRec) : UnitRec :=
  { u with ceiling := max 100 (min v 1000), floor := min u.floor (max 100 (min v 1000) - 100) }

/-- An EXCLUDED value applied: a value equal to the flag changes nothing; a unit excluded while it is not
contributing, that is, not READY on a `running` channel, owes the event of its exclusion, and a unit whose flag is
cleared owes none (R162; log 35). -/
def applyExcluded (running b : Bool) (u : UnitRec) : UnitRec :=
  if b = u.excluded then u
  else { u with excluded := b, owesEvent := b && !(decide (u.state = .ready) && running) }

/-- A unit record with a setting applied, on a channel that is RUNNING or not; an EMPTY unit is left as it is
(R161). -/
def settingApplied (running : Bool) (x : Setting) (u : UnitRec) : UnitRec :=
  if u.state = .empty then u
  else match x with
    | .floor v => applyFloor v u
    | .ceiling v => applyCeiling v u
    | .excluded b => applyExcluded running b u

/-- A setting applied to a unit: the record changes, a running job that plans on the unit is disturbed
(R87, R163), and a change of exclusion that changes contribution raises its event (R162). -/
def applySetting (i : Nat) (x : Setting) (s : State) : State :=
  let s' := disturb (fun k => k == i) 
    (setUnit i (settingApplied (onRunningChannel s i) x (unitOf s i)) s)
  if contributing s i && !contributing s' i then contributionLost i s'
  else if !contributing s i && contributing s' i then contributionGained s'
  else s'

/-- Every READY unit satisfying `p` that owes the event of its exclusion raises it: its channel has become RUNNING,
and it would otherwise have become contributing (R162; log 35). -/
def raiseOwed (p : Nat → Bool) (s : State) : State :=
  let owed := (s.fleet.units.filter fun q =>
    p q.1 && decide (q.2.state = .ready) && q.2.owesEvent).map Prod.fst
  let raised := fun i (u : UnitRec) => if p i = true ∧ u.state = .ready then { u with owesEvent := false } else u
  let s' := { s with fleet := { s.fleet with units := tableMap UnitRec.reset raised s.fleet.units } }
  owed.foldl (fun s i => contributionLost i s) s'

end Sys2Proof.Machine
end

