-- ==== Sys2Proof/Machine/Channels.lean ====
section
/-! DEFINITION. The Fleet Channel Controller: the line and its arbitration, judging answers, discovery,
exchange rounds, faults, STOP and HALT (03, R31 to R53; R180). -/

namespace Sys2Proof.Machine

/-! ### Frames to the concentrators (R32, R35, R45, R180) -/

/-- The watchdog period an ARM carries: max(4 × exchange period, 400) ms (R35). -/
def watchdogPeriod (s : State) : Nat := max (4 * s.ctl.period) 400

/-- The contents of the EXCHANGE frame for a channel: a setpoint field for each drop of the roster (R45). -/
def exchangeContents (s : State) (c : Nat) : List Byte :=
  let roster := (channelOf s c).roster
  putU 2 roster.length ++
    roster.flatMap fun d => setpointField (unitOf s (unitIndex c d)) (setpointOf s (unitIndex c d))

/-- The wire bytes of a frame the part sends on a channel (R180). -/
def channelFrameWire (s : State) (c : Nat) : ChannelFrame → List Byte
  | .arm => channelWire 0x01#8 (putU 2 (watchdogPeriod s))
  | .roster => channelWire 0x02#8 []
  | .catalogue drop page => channelWire 0x03#8 (putU 2 drop ++ putU 1 page)
  | .exchange => channelWire 0x04#8 (exchangeContents s c)
  | .halt => channelWire 0x05#8 []

/-- The next frame of a discovery (R35 to R37). -/
def discoveryFrame (r : ChannelRec) (d : Discovery) : ChannelFrame :=
  match d.step with
  | .arm => .arm
  | .roster => .roster
  | .catalogue => .catalogue (r.roster.getD d.position 0) d.page

/-- The first frame that waits for a FREE line, with its sender and the record once it is sent, in the
order of preference of R32. -/
def nextFrame (r : ChannelRec) : Option (ChannelFrame × FrameOwner × ChannelRec) :=
  if r.haltPending then some (.halt, .nobody, { r with haltPending := false })
  else if r.armPending then some (.arm, .rearm, { r with armPending := false })
  else if r.exchangePending then some (.exchange, .round, { r with exchangePending := false })
  else match r.state, r.discovery with
    | .starting, some d => some (discoveryFrame r d, .discovery, r)
    | _, _ => none

/-- A FREE line takes the next frame that waits for it (R32). -/
def kickLine (s : State) (c : Nat) : State :=
  if (channelOf s c).line = .free then
    match nextFrame (channelOf s c) with
    | none => s
    | some (frame, owner, r) =>
      setChannel c { r with line := .sending frame owner (channelFrameWire s c frame) } s
  else s

/-- Every FREE line takes the next frame that waits for it. -/
def kickLines (s : State) : State := (List.range 8).foldl kickLine s

/-! ### Judging an answer (R33, R180) -/

/-- One drop section of an EXCHANGE answer (R47). -/
structure DropSection where
  present : Bool
  bytes : List Byte
deriving DecidableEq, Repr

/-- The characters of a frame up to the first one with a framing error. -/
def goodPrefix : List RxChar → List Byte
  | .ok b :: t => b :: goodPrefix t
  | _ => []

/-- The answer kind a frame calls for (R180). -/
def answerKind : ChannelFrame → Byte
  | .arm => 0x81#8
  | .roster => 0x82#8
  | .catalogue _ _ => 0x83#8
  | .exchange => 0x84#8
  | .halt => 0x00#8

/-- The kind a descriptor's code names (R180). -/
def descKindOf (b : Byte) : DescKind :=
  match b.toNat with
  | 1 => .soc | 2 => .energy | 3 => .dischargePower | 4 => .chargePower | 5 => .efficiency
  | 6 => .feeder | 7 => .measuredPower | 8 => .setpoint | 9 => .pad
  | _ => .unknown b

/-- The direction a descriptor's code names (R180). -/
def descDirOf (b : Byte) : DescDir :=
  match b.toNat with
  | 1 => .fixed | 2 => .reported | 3 => .commanded
  | _ => .unknown b

/-- One descriptor record at the head of bytes, with the bytes after it; none where the bytes are too
few or the name length is above 15 (R180). -/
def readDescriptor (bs : List Byte) : Option (Descriptor × List Byte) :=
  let withFixed := readBit bs 3 0
  let base := if withFixed then 16 else 12
  let nameLen := readU bs base 1
  if bs.length < base + 1 ∨ 15 < nameLen ∨ bs.length < base + 1 + nameLen then none
  else some
    ({ kind := descKindOf (bs.getD 0 0), dir := descDirOf (bs.getD 1 0), width := readU bs 2 1,
       min := readS bs 4 4, max := readS bs 8 4,
       fixedValue := if withFixed then some (readS bs 12 4) else none,
       name := (bs.drop (base + 1)).take nameLen }, bs.drop (base + 1 + nameLen))

/-- A number of descriptor records, with the bytes after them. -/
def readDescriptors : Nat → List Byte → Option (List Descriptor × List Byte)
  | 0, bs => some ([], bs)
  | n + 1, bs =>
    match readDescriptor bs with
    | none => none
    | some (d, rest) =>
      match readDescriptors n rest with
      | none => none
      | some (ds, rest) => some (d :: ds, rest)

/-- A number of drop sections, with the bytes after them; none where the bytes are too few or a byte
count is above 16 (R47, R180). -/
def readSections : Nat → List Byte → Option (List DropSection × List Byte)
  | 0, bs => some ([], bs)
  | n + 1, bs =>
    let count := readU bs 1 1
    if bs.length < 2 ∨ 16 < count ∨ bs.length < 2 + count then none
    else
      match readSections n (bs.drop (2 + count)) with
      | none => none
      | some (ss, rest) =>
        some ({ present := readBit bs 0 0, bytes := (bs.drop 2).take count } :: ss, rest)

/-- The drops of a ROSTER answer's contents. -/
def readDrops (contents : List Byte) : List Nat :=
  (List.range (readU contents 0 2)).map fun k => readU contents (2 + 2 * k) 2

/-- Strictly ascending, each at most 511 (R33). -/
def rosterFits : List Nat → Bool
  | [] => true
  | [d] => decide (d ≤ 511)
  | d :: e :: t => decide (d < e) && rosterFits (e :: t)

/-- The outcome of an answer's contents against what its kind requires (R33, R180). The FRAMING cases
are judged before EXTRA_DATA (log 15). -/
def contentsOutcome (r : ChannelRec) (frame : ChannelFrame) (contents : List Byte) : ReplyOutcome :=
  match frame with
  | .halt => .framing
  | .arm => if contents.isEmpty then .good else .extraData
  | .roster =>
    let n := readU contents 0 2
    if contents.length < 2 ∨ 512 < n ∨ contents.length < 2 + 2 * n then .framing
    else if !rosterFits (readDrops contents) then .framing
    else if 2 + 2 * n < contents.length then .extraData
    else .good
  | .catalogue drop page =>
    if contents.length < 5 ∨ readU contents 0 2 ≠ drop ∨ readU contents 2 1 ≠ page ∨
        8 < readU contents 4 1 then .framing
    else match readDescriptors (readU contents 4 1) (contents.drop 5) with
      | none => .framing
      | some (_, rest) => if rest.isEmpty then .good else .extraData
  | .exchange =>
    if contents.isEmpty then .framing
    else match readSections r.roster.length (contents.drop 1) with
      | none => .framing
      | some (_, rest) => if rest.isEmpty then .good else .extraData

/-- A frame that arrives during a reply wait is judged: the first test it fails gives the outcome (R33).
A good answer comes with its contents. Characters before a start byte fail the first test, since the
receiver of a channel does not hunt, and characters after the declared end are ignored (log 32). -/
def judgeAnswer (r : ChannelRec) (frame : ChannelFrame) (chars : List RxChar) :
    ReplyOutcome × List Byte :=
  let bs := goodPrefix chars
  let len := readU bs 1 2
  let contents := (bs.drop 4).take (len - 1)
  if bs.head? ≠ some Config.channelStart ∨ bs.length < 3 ∨ bs.length < len + 5 then (.framing, [])
  else if readU bs (len + 3) 2 ≠ (crc16 ((bs.drop 1).take (len + 2))).toNat then (.checkError, [])
  else if len = 0 ∨ bs.getD 3 0 ≠ answerKind frame then (.framing, [])
  else (contentsOutcome r frame contents, contents)

/-! ### Rounds (R44, R51) -/

/-- A round completes: its failed channels are stored, the Delivery Tracker and the Margin Monitor take
the completion, and the round is removed (R51). -/
def completeRound (s : State) : State :=
  match s.ctl.round with
  | none => s
  | some r =>
    marginCompletion (trackCompletion
      { s with ctl := { s.ctl with failedMask := r.failed, round := none } })

/-- A round whose outstanding set is empty completes (R51). -/
def completeIfDone (s : State) : State :=
  match s.ctl.round with
  | none => s
  | some r => if r.outstanding.isEmpty then completeRound s else s

/-- A channel leaves the outstanding set; the round completes when the set becomes empty (R51; log 7). -/
def leaveOutstanding (c : Nat) (s : State) : State :=
  match s.ctl.round with
  | none => s
  | some r =>
    completeIfDone { s with ctl := { s.ctl with
      round := some { r with outstanding := r.outstanding.filter fun k => k ≠ c } } }

/-- A channel is placed in the round's failed set and leaves the outstanding set (R48). -/
def failOutstanding (c : Nat) (s : State) : State :=
  match s.ctl.round with
  | none => s
  | some r =>
    leaveOutstanding c { s with ctl := { s.ctl with
      round := some { r with failed := setInsert r.failed c } } }

/-- A channel leaves the participating and the outstanding sets (R40), and the failed set with them, so
that a round whose every channel is stopped completes with none of them failed (R51; log 31). -/
def leaveRound (c : Nat) (s : State) : State :=
  match s.ctl.round with
  | none => s
  | some r =>
    leaveOutstanding c { s with ctl := { s.ctl with
      round := some { r with
        participating := r.participating.filter fun k => k ≠ c
        failed := r.failed.filter fun k => k ≠ c } } }

/-- The channels that take part in rounds: IDLING or RUNNING (R44). -/
def roundChannels (s : State) : List Nat :=
  (List.range 8).filter fun c =>
    decide ((channelOf s c).state = .idling) || decide ((channelOf s c).state = .running)

/-- Makes an EXCHANGE frame due on a channel (R44). -/
def exchangeDue (s : State) (c : Nat) : State :=
  setChannel c { channelOf s c with exchangePending := true } s

/-- A round begins: the figures and the roll are formed, one EXCHANGE frame is made due on each
participating channel, and a round with no channel completes at once (R44, R131, R145). -/
def beginRound (s : State) : State :=
  let cs := roundChannels s
  let s := { s with disp := { s.disp with figures := some (formFigures s) } }
  let s := formRoll s
  let s := { s with ctl := { s.ctl with
      round := some { participating := cs, outstanding := cs, failed := [] } } }
  completeIfDone (cs.foldl exchangeDue s)

/-! ### Faults (R50) -/

/-- A channel enters FAULTED (R50). A running job that plans on its units is disturbed (R87). -/
def faultChannel (c : Nat) (s : State) : State :=
  let onSpan := fun i => channelOfUnit i == c
  let s := setChannel c { channelOf s c with
      state := .faulted, discovery := none, armPending := false, exchangePending := false
      haltPending := true } s
  raiseChannel c (disturb onSpan (markOnUnits onSpan s))

/-- A failed outcome's accounting shared by R48 and R53: its kind joins the sticky set and the failure
count rises. -/
def countFailure (c : Nat) (outcome : ReplyOutcome) (s : State) : State :=
  let s := setSticky c (addFault (channelOf s c).sticky outcome) s
  setChannel c { channelOf s c with failures := (channelOf s c).failures + 1 } s

/-- At a count of 3, TOO_MANY joins the sticky set and the channel goes to FAULTED (R48, R53). -/
def faultAtThree (c : Nat) (s : State) : State :=
  if 3 ≤ (channelOf s c).failures then
    faultChannel c (setSticky c { (channelOf s c).sticky with tooMany := true } s)
  else s

/-! ### Exchange outcomes (R46 to R49, R53) -/

/-- A drop section turned into a drop report and handed to the Unit Table (R47). -/
def dropReport (c : Nat) (s : State) (p : Nat × DropSection) : State :=
  let i := unitIndex c p.1
  let u := unitOf s i
  let width := reportedWidth u.catalogue
  if u.state = .probing ∨ u.state = .ready ∨ u.state = .lost then
    if p.2.present = true ∧ p.2.bytes.length = ceilDiv width 8 then
      reportUnit i (goodReport i (natOfBytes p.2.bytes % 2 ^ width) s)
    else missingReport i s
  else s

/-- Copies the concentrator fault indication; a change raises a CHANNEL notice (R46). -/
def copyIndication (c : Nat) (b : Bool) (s : State) : State :=
  if (channelOf s c).fault = b then s
  else raiseChannel c (setChannel c { channelOf s c with fault := b } s)

/-- A good EXCHANGE answer (R46), or one that reports the watchdog bitten (R49). -/
def goodExchange (c : Nat) (contents : List Byte) (s : State) : State :=
  let roster := (channelOf s c).roster
  let sections := ((readSections roster.length (contents.drop 1)).map Prod.fst).getD []
  let s := copyIndication c (readBit contents 0 1) s
  let s := (roster.zip sections).foldl (dropReport c) s
  if readBit contents 0 0 then
    let s := leaveOutstanding c s
    faultChannel c (setSticky c { (channelOf s c).sticky with watchdogBite := true } s)
  else
    leaveOutstanding c (setChannel c { channelOf s c with failures := 0 } s)

/-- A failed EXCHANGE answer (R48). -/
def failedExchange (c : Nat) (outcome : ReplyOutcome) (s : State) : State :=
  let f := addFault (channelOf s c).sticky outcome
  let s := setSticky c f s
  let s := (channelOf s c).roster.foldl (fun s d => missingReport (unitIndex c d) s) s
  let s := setChannel c { channelOf s c with failures := (channelOf s c).failures + 1 } s
  faultAtThree c (failOutstanding c s)

/-- The outcome of the re-arming ARM (R53). A channel it sends to FAULTED leaves the round's outstanding
set. -/
def rearmOutcome (c : Nat) (outcome : ReplyOutcome) (s : State) : State :=
  if outcome = .good then setChannel c { channelOf s c with failures := 0 } s
  else
    let s := faultAtThree c (countFailure c outcome s)
    if (channelOf s c).state = .faulted then leaveOutstanding c s else s

/-! ### Discovery (R35 to R39) -/

/-- Writes a channel's discovery progress. -/
def setDiscovery (c : Nat) (d : Discovery) (s : State) : State :=
  setChannel c { channelOf s c with discovery := some d } s

/-- Discovery completes: IDLING, with a CHANNEL notice (R39). -/
def completeDiscovery (c : Nat) (s : State) : State :=
  raiseChannel c (setChannel c { channelOf s c with discovery := none, state := .idling } s)

/-- A failed attempt of the ARM or ROSTER step: the next attempt, or FAULTED with TIMEOUT after the third
(R35, R36). -/
def failedAttempt (c : Nat) (d : Discovery) (s : State) : State :=
  if d.attempt < 3 then setDiscovery c { d with attempt := d.attempt + 1 } s
  else faultChannel c (setSticky c { (channelOf s c).sticky with timeout := true } s)

/-- Discovery goes on with the next drop, or completes after the last (R37, R39). -/
def nextDrop (c : Nat) (d : Discovery) (s : State) : State :=
  if d.position + 1 < (channelOf s c).roster.length then
    setDiscovery c { step := .catalogue, attempt := 1, position := d.position + 1, page := 0, records := [] } s
  else completeDiscovery c s

/-- A good ROSTER answer: the roster is taken, and discovery goes on at its first drop or completes (R36). -/
def takeRoster (c : Nat) (contents : List Byte) (s : State) : State :=
  let s := setChannel c { channelOf s c with roster := readDrops contents } s
  if (readDrops contents).isEmpty then completeDiscovery c s
  else setDiscovery c { step := .catalogue, attempt := 1, position := 0, page := 0, records := [] } s

/-- A good CATALOGUE page (R37). -/
def takePage (c : Nat) (d : Discovery) (contents : List Byte) (s : State) : State :=
  let i := unitIndex c ((channelOf s c).roster.getD d.position 0)
  let records := d.records ++
    ((readDescriptors (readU contents 4 1) (contents.drop 5)).map Prod.fst).getD []
  if readBit contents 3 0 then
    if d.page = 0 then setDiscovery c { d with attempt := 1, page := 1, records := records } s
    else nextDrop c d (rejectCatalogue i .payloadTooLong s)
  else nextDrop c d (takeCatalogue i records s)

/-- A failed attempt at a catalogue page: the page again, or MISSING_RECORD after the second (R37). -/
def failedPage (c : Nat) (d : Discovery) (s : State) : State :=
  if d.attempt < 2 then setDiscovery c { d with attempt := d.attempt + 1 } s
  else
    nextDrop c d (rejectCatalogue (unitIndex c ((channelOf s c).roster.getD d.position 0)) .missingRecord s)

/-- The outcome of a discovery frame (R35 to R37). -/
def discoveryOutcome (c : Nat) (outcome : ReplyOutcome) (contents : List Byte) (s : State) : State :=
  match (channelOf s c).discovery with
  | none => s
  | some d =>
    match d.step with
    | .arm =>
      if outcome = .good then
        setDiscovery c { step := .roster, attempt := 1, position := 0, page := 0, records := [] } s
      else failedAttempt c d s
    | .roster => if outcome = .good then takeRoster c contents s else failedAttempt c d s
    | .catalogue => if outcome = .good then takePage c d contents s else failedPage c d s

/-- An outcome handed to whoever sent the frame (R33). -/
def handOutcome (c : Nat) (owner : FrameOwner) (outcome : ReplyOutcome) (contents : List Byte)
    (s : State) : State :=
  match owner with
  | .discovery => discoveryOutcome c outcome contents s
  | .round => if outcome = .good then goodExchange c contents s else failedExchange c outcome s
  | .rearm => rearmOutcome c outcome s
  | .nobody => s

/-! ### START, STOP, ENGAGE, DISENGAGE and HALT on channels -/

/-- A channel's discovery starts (R34). -/
def startChannel (s : State) (c : Nat) : State :=
  raiseChannel c (setChannel c { channelOf s c with
      state := .starting
      discovery := some { step := .arm, attempt := 1, position := 0, page := 0, records := [] } } s)

/-- A line whose sender is abandoned: the outcome will be discarded (R40). -/
def abandonLine : ChannelLine → ChannelLine
  | .free => .free
  | .sending frame _ wire => .sending frame .nobody wire
  | .awaiting frame _ wait => .awaiting frame .nobody wait

/-- STOP of one channel, in the order of R40. A channel already STOPPED is left as it is. -/
def stopChannel (s : State) (c : Nat) : State :=
  if (channelOf s c).state = .stopped then s
  else
    let onSpan := fun i => channelOfUnit i == c
    let s := setChannel c { channelOf s c with
        discovery := none, line := abandonLine (channelOf s c).line } s
    let s := leaveRound c s
    let s := setChannel c { channelOf s c with
        armPending := false, exchangePending := false, haltPending := true } s
    let s := disturb onSpan (markOnUnits onSpan s)
    let s := emptySpan c s
    let s := setChannel c { channelOf s c with
        sticky := FaultSet.none, failures := 0, roster := [], fault := false, state := .stopped } s
    raiseChannel c s

/-- A channel becomes RUNNING (R41). -/
def engageChannel (s : State) (c : Nat) : State :=
  raiseChannel c (setChannel c { channelOf s c with state := .running } s)

/-- A channel becomes IDLING; the entries with records on its units are marked, and a running job that
plans on them is disturbed (R42, R87). -/
def disengageChannel (s : State) (c : Nat) : State :=
  let onSpan := fun i => channelOfUnit i == c
  disturb onSpan (markOnUnits onSpan
    (raiseChannel c (setChannel c { channelOf s c with state := .idling } s)))

/-- HALT and the re-arming ARM made pending on a channel (R53). -/
def haltChannel (s : State) (c : Nat) : State :=
  setChannel c { channelOf s c with haltPending := true, armPending := true } s

end Sys2Proof.Machine
end

