-- ==== Sys2Proof/Machine/Shares.lean ====
section
/-! DEFINITION. The Share Table: numbering, writing, trimming and freeing share records (06, R97, R103 to
R110, R117, R118). The records in use stand in one list, grouped by ascending entry number and in
allocation order within an entry (log 18). -/

namespace Sys2Proof.Machine

/-- The backing target of Q kW under holdback h: ceil(Q × 1,000,000 / (1000 − h)) W, up to a multiple of
10 (R97). -/
def backingTarget (quantity holdback : Nat) : Nat :=
  ceilDiv (ceilDiv (quantity * 1000000) (1000 - holdback)) 10 * 10

/-! ### The pool -/

/-- The `k` lowest record numbers from `n` on that are not in use, looking at `fuel` numbers. -/
def lowestFree (used : List Nat) : (fuel n k : Nat) → List Nat
  | 0, _, _ => []
  | _ + 1, _, 0 => []
  | fuel + 1, n, k + 1 =>
    if used.contains n then lowestFree used fuel (n + 1) (k + 1)
    else n :: lowestFree used fuel (n + 1) k

/-- The `k` lowest free record numbers of the pool (R104). -/
def freeNumbers (rs : List ShareRec) (k : Nat) : List Nat :=
  lowestFree (rs.map ShareRec.num) Config.pool 0 k

/-- How many record numbers are free (R104). -/
def freeCount (rs : List ShareRec) : Nat := Config.pool - rs.length

/-! ### Joining and leaving the lists -/

/-- Appends a record to the end of its entry's per-entry list (R106). -/
def joinShare (r : ShareRec) : List ShareRec → List ShareRec
  | [] => [r]
  | x :: t => if r.entry < x.entry then r :: x :: t else x :: joinShare r t

/-- Places a record immediately after the record of its entry with a number (R116). -/
def joinAfter (n : Nat) (r : ShareRec) : List ShareRec → List ShareRec
  | [] => []
  | x :: t => if x.num = n ∧ x.entry = r.entry then x :: r :: t else x :: joinAfter n r t

/-- Writes new records in the order given, each with its number (R104, R108). -/
def writeNew (new : List (Nat × ShareRec)) (rs : List ShareRec) : List ShareRec :=
  new.foldl (fun rs p => joinShare { p.2 with num := p.1 } rs) rs

/-- Frees every record of an entry (R117). -/
def freeEntry (e : Nat) (s : State) : State := setShares (s.shares.filter fun r => r.entry ≠ e) s

/-- The Share Table's boundary rule: every record whose last slot is t − 1 is freed (R118). -/
def freeEnded (t : Nat) (s : State) : State := setShares (s.shares.filter fun r => r.last + 1 ≠ t) s

/-! ### Trimming -/

/-- Takes records, the last placed first, against an excess (R109). -/
def trimLoop (q : Nat) : List ShareRec → Nat → List ShareRec
  | [], _ => []
  | r :: t, x =>
    if x = 0 then r :: t
    else if r.power ≤ x then trimLoop q t (x - r.power)
    else if q ≤ r.power - x then { r with power := r.power - x } :: t
    else r :: trimLoop q t x

/-- A list of records in allocation order trimmed to a target (R109). -/
def trimRecords (q target : Nat) (rs : List ShareRec) : List ShareRec :=
  (trimLoop q rs.reverse (powerSum rs - target)).reverse

/-- The per-entry list of an entry replaced by one with the same or fewer records. -/
def replaceEntryRecords (e : Nat) (new rs : List ShareRec) : List ShareRec :=
  new.foldl (fun acc r => joinShare r acc) (rs.filter fun r => r.entry ≠ e)

end Sys2Proof.Machine
end

