-- ==== Sys2Proof/Machine/Book.lean ====
section
/-! DEFINITION. The Commitment Book: the change list, the transitions at a slot boundary, finding an
entry, and reading the book in order (04, R57, R58, R71 to R79). -/

namespace Sys2Proof.Machine

/-! ### The change list (R75) -/

/-- The change list with an entry placed on it with a cause; `state` says which of STATE and COVER. -/
def placeMember (n : Nat) (state : Bool) (b : Book) : Book :=
  if b.changes.any fun m => m.entry == n then
    { b with changes := b.changes.map fun m =>
        if m.entry = n then
          { m with causeState := m.causeState || state, causeCover := m.causeCover || !state }
        else m }
  else if b.changes.length < Config.changeMembers then
    { b with changes := b.changes ++ [{ entry := n, causeState := state, causeCover := !state }] }
  else { b with more := true }

/-- Places an entry on the change list and raises ENTRY towards TL (R75). -/
def placeChange (n : Nat) (state : Bool) (s : State) : State :=
  raiseOn .tl .entry { s with book := placeMember n state s.book }

/-! ### Transitions -/

/-- An entry in a new state; entering a terminal state sets its uncovered W to 0 (R77). -/
def inState (st : EntryState) (e : Entry) : Entry :=
  { e with state := st, uncovered := if nonTerminal st then e.uncovered else 0 }

/-- The state an entry takes at the boundary into slot `t` under offset `g`; none when it does not change
(R71 to R74). -/
def boundaryState (t g : Nat) (e : Entry) : Option EntryState :=
  if e.first = t + g ∧ e.state = .offered then some .lapsed
  else if e.first = t + g ∧ e.state = .awarded then some .locked
  else if e.first = t ∧ e.state = .locked then some .active
  else if lastSlot e + 1 = t ∧ e.state = .active then some .ended
  else none

/-- One entry at the boundary into slot `t`: its transition, the freeing of a lapsed entry's records, and
its place on the change list (R71 to R74, R76, R117). -/
def boundaryEntry (t : Nat) (s : State) (p : Nat × Entry) : State :=
  match boundaryState t s.time.gate p.2 with
  | none => s
  | some st =>
    let s := setEntry p.1 (inState st p.2) s
    let s := if st = .lapsed then freeEntry p.1 s else s
    placeChange p.1 true s

/-- The Commitment Book at the boundary into slot `t`, in ascending entry number (R74). -/
def bookBoundary (t : Nat) (s : State) : State := s.book.entries.foldl (boundaryEntry t) s

/-- An entry taken off the book by WITHDRAW, an AWARD of 0 or RELEASE: its state and the freeing of its
records (R64, R66, R69, R117). -/
def endEntry (n : Nat) (e : Entry) (st : EntryState) (s : State) : State :=
  freeEntry n (setEntry n (inState st e) s)

/-! ### Finding entries -/

/-- The lowest free entry number (R57). -/
def lowestFreeEntry (s : State) : Option Nat :=
  (List.range Config.entries).find? fun n => (entryOf s n).isNone

/-- The entry a request names by its number and trade reference, or the code that refuses it (R58). -/
def findEntry (s : State) (n ref : Nat) : Except AnswerCode Entry :=
  if 1023 < n then .error .badRange
  else match entryOf s n with
    | none => .error .noEntry
    | some e => if e.ref = ref then .ok e else .error .noEntry

/-- An entry is in OFFERED or AWARDED, before its gate (R8). -/
def beforeGate (e : Entry) : Bool := decide (e.state = .offered) || decide (e.state = .awarded)

/-- The OFFER that waits in the TL job slot and the OFFER that runs as the job, where there are such
(R8, R60). -/
def offersInProgress (s : State) : List OfferReq :=
  (match s.eval.slot with
    | some (.offer o) => [o]
    | some (.quote _) => []
    | none => []) ++
  (match s.eval.job with
    | none => []
    | some j => match j.kind with
      | .offer o => [o]
      | .quote _ => []
      | .replan _ _ => [])

/-! ### Reading the book in order (R78) -/

/-- The reading order: first slot, then entry number. -/
def bookOrder (a b : Nat × Entry) : Bool :=
  decide (a.2.first < b.2.first) || (decide (a.2.first = b.2.first) && decide (a.1 ≤ b.1))

/-- An entry comes after a key. -/
def afterKey (slot n : Nat) (p : Nat × Entry) : Bool :=
  decide (slot < p.2.first) || (decide (p.2.first = slot) && decide (n < p.1))

/-- The entries that a reading of the book goes through. -/
def bookReading (s : State) (fromStart liveOnly : Bool) (slot n : Nat) : List (Nat × Entry) :=
  (sortBy bookOrder s.book.entries).filter fun p =>
    (fromStart || afterKey slot n p) && (!liveOnly || nonTerminal p.2.state)

end Sys2Proof.Machine
end

