-- ==== Sys2Proof/Machine/Evaluator.lean ====
section
/-! DEFINITION. The Headroom Evaluator: the frozen copy, offerables and rooms, the allocation walk, a
replan's plan, the arbiter, and the writing of results (05, R84 to R102; 06, R108, R111 to R116). -/

namespace Sys2Proof.Machine

/-! ### The frozen copy (R86) -/

/-- A unit's figures as a job freezes them. -/
def freezeUnit (s : State) (i : Nat) : FrozenUnit :=
  let u := unitOf s i
  { contributing := contributing s i, feeder := u.feeder, energy := u.energy, soc := u.soc,
    floor := u.floor, ceiling := u.ceiling, eta := u.eta, pd := u.pd, pc := u.pc,
    confidence := confidence u }

/-- A unit of which the copy lists nothing: EMPTY, with every figure as reset leaves it. -/
def FrozenUnit.absent : FrozenUnit :=
  { contributing := false, feeder := 0, energy := 0, soc := 0, floor := 200, ceiling := 950, eta := 0,
    pd := 0, pc := 0, confidence := 1000 }

/-- The frozen copy a job takes at its grant. -/
def freeze (s : State) : Frozen :=
  { units := s.fleet.units.map fun p => (p.1, freezeUnit s p.1)
    shares := s.shares
    feeders := s.fleet.feeders
    endurance := s.book.endurance
    holdback := s.eval.holdback
    minShare := s.eval.minShare
    slot := s.time.slot
    start := s.eval.start
    free := freeCount s.shares }

/-- A unit's figures in a frozen copy. -/
def frozenUnit (f : Frozen) (i : Nat) : FrozenUnit := tableGet FrozenUnit.absent f.units i

/-! ### What one unit can offer (R91 to R94) -/

/-- Energy spoken for in a slot by records that count in a direction: each term floored on its own, at
its own product's endurance (R91 step 3, R92 step 3). -/
def spokenFor (f : Frozen) (counts : DirClass → Bool) (recs : List ShareRec) (t : Nat) : Nat :=
  ((recs.filter fun r => counts r.cls && covers r t).map fun r =>
    r.power * enduranceOf f.endurance (productOfClass r.cls) / 3600).sum

/-- Power held in a slot by records that count in a direction. -/
def heldPower (counts : DirClass → Bool) (recs : List ShareRec) (t : Nat) : Nat :=
  powerSum (recs.filter fun r => counts r.cls && covers r t)

/-- Steps 4 to 7 of R91 and R92: from the deliverable energy and the rated power of a direction. -/
def offerableFrom (f : Frozen) (counts : DirClass → Bool) (recs : List ShareRec)
    (energy power confidence endurance t : Nat) : Nat :=
  let byEnergy := (energy - spokenFor f counts recs t) * 3600 / endurance
  let byPower := power - heldPower counts recs t
  min byEnergy byPower * confidence / 1000 / 10 * 10

/-- The up-direction offerable of a unit for a slot (R91). -/
def offerableUp (f : Frozen) (u : FrozenUnit) (recs : List ShareRec) (endurance t : Nat) : Nat :=
  offerableFrom f countsUp recs (deliverableUp u.soc u.floor u.energy u.eta) u.pd u.confidence endurance t

/-- The down-direction offerable of a unit for a slot (R92). -/
def offerableDown (f : Frozen) (u : FrozenUnit) (recs : List ShareRec) (endurance t : Nat) : Nat :=
  offerableFrom f countsDown recs (absorbable u.soc u.ceiling u.energy) u.pc u.confidence endurance t

/-- The offerable of a unit for one slot and product (R93). -/
def offerable (f : Frozen) (p : Product) (u : FrozenUnit) (recs : List ShareRec) (t : Nat) : Nat :=
  let endurance := enduranceOf f.endurance p
  let o := match p with
    | .rsu => offerableUp f u recs endurance t
    | .rsd => offerableDown f u recs endurance t
    | .fsr => min (offerableUp f u recs endurance t) (offerableDown f u recs endurance t)
  if u.contributing = false ∨ Config.unitRecords ≤ recs.length ∨ o < f.minShare then 0 else o

/-- The least of a figure over a range of slots; 0 for an empty range. -/
def leastOver (first count : Nat) (g : Nat → Nat) : Nat :=
  match count with
  | 0 => 0
  | n + 1 => (List.range n).foldl (fun m k => min m (g (first + k + 1))) (g first)

/-- The offerable of a unit over a range (R94), on a working copy of the records. -/
def rangeOfferable (f : Frozen) (shares : List ShareRec) (p : Product) (first count i : Nat) : Nat :=
  let recs := shares.filter fun r => r.unit == i
  leastOver first count (offerable f p (frozenUnit f i) recs)

/-! ### Feeders and the fleet (R95, R96) -/

/-- The room of a group for a slot in a direction (R95). -/
def groupRoom (f : Frozen) (shares : List ShareRec) (counts : DirClass → Bool) (limit : Nat) (g t : Nat) :
    Nat :=
  limit * 1000 -
    powerSum (shares.filter fun r => counts r.cls && covers r t && ((frozenUnit f r.unit).feeder == g))

/-- The room of a group over a range for a product: of its one direction, or for FSR the lesser of both
(R95). -/
def rangeRoom (f : Frozen) (shares : List ShareRec) (p : Product) (first count g : Nat) : Nat :=
  let limits := tableGet FeederLimits.reset f.feeders g
  let ex := leastOver first count (groupRoom f shares countsUp limits.exportKw g)
  let im := leastOver first count (groupRoom f shares countsDown limits.importKw g)
  match p with
  | .rsu => ex
  | .rsd => im
  | .fsr => min ex im

/-- The feeder sum of a group over a range (R95). -/
def feederSum (f : Frozen) (p : Product) (first count g : Nat) : Nat :=
  min (((f.units.filter fun q => q.2.feeder == g).map fun q =>
      rangeOfferable f f.shares p first count q.1).sum)
    (rangeRoom f f.shares p first count g)

/-- The raw headroom over a range, W (R96). -/
def rawHeadroom (f : Frozen) (p : Product) (first count : Nat) : Nat :=
  ((List.range Config.feeders).map fun g => feederSum f p first count g).sum

/-- The kW that a raw power supports once the holdback is taken off (R96, R100). -/
def supportedKw (raw holdback : Nat) : Nat := raw * (1000 - holdback) / 1000000

/-! ### The allocation walk (R98, R101) -/

/-- A walk under way. -/
structure Walk where
  remaining : Nat
  used : List (Nat × Nat)
  fresh : List (Nat × Nat)
  enlarged : List Enlargement
  lastUnit : Option Nat
  stopped : Bool
deriving DecidableEq, Repr

/-- What a walk is for: the product, the range, the free record numbers, and for a replan its entry. -/
structure WalkTask where
  product : Product
  first : Nat
  count : Nat
  free : Nat
  entry : Option Nat
deriving DecidableEq, Repr

/-- The last slot of a walk's range. -/
def walkLast (k : WalkTask) : Nat := k.first + k.count - 1

/-- The records of the replanned entry on a unit that overlap the walk's range. -/
def overlapping (k : WalkTask) (shares : List ShareRec) (i : Nat) : List ShareRec :=
  shares.filter fun r =>
    decide (some r.entry = k.entry) && (r.unit == i) && decide (r.first ≤ walkLast k) &&
      decide (k.first ≤ r.last)

/-- A record's range equals the walk's. -/
def sameRange (k : WalkTask) (r : ShareRec) : Bool :=
  decide (r.first = k.first) && decide (r.last = walkLast k)

/-- The power a walk would place on a unit: the least of its range offerable, the remaining target and
its group's remaining room, floored to a multiple of 10 (R98). -/
def walkPower (f : Frozen) (shares : List ShareRec) (k : WalkTask) (w : Walk) (i : Nat) : Nat :=
  let g := (frozenUnit f i).feeder
  min (rangeOfferable f shares k.product k.first k.count i)
    (min w.remaining (rangeRoom f shares k.product k.first k.count g - tableGet 0 w.used g)) / 10 * 10

/-- A walk after a power is placed on a unit. -/
def walkPlaced (f : Frozen) (w : Walk) (i p : Nat) : Walk :=
  let g := (frozenUnit f i).feeder
  { w with remaining := w.remaining - p, used := tableInsert w.used g (tableGet 0 w.used g + p),
           lastUnit := some i }

/-- A walk visits one unit (R98). A new record with no free number left stops it (R101). -/
def walkUnit (f : Frozen) (shares : List ShareRec) (k : WalkTask) (w : Walk) (i : Nat) : Walk :=
  if w.remaining = 0 ∨ w.stopped = true then w
  else
    let mine := overlapping k shares i
    if mine.any (fun r => !sameRange k r) then w
    else
      let p := walkPower f shares k w i
      if p < f.minShare ∨ p = 0 then w
      else match mine with
        | r :: _ =>
          let v := walkPlaced f w i p
          { v with enlarged := v.enlarged ++ [{ target := r.num, unit := i, add := p }] }
        | [] =>
          if k.free ≤ w.fresh.length then { w with stopped := true }
          else
            let v := walkPlaced f w i p
            { v with fresh := v.fresh ++ [(i, p)] }

/-- The visiting order: ascending from the start index, then from 0 up to it (R98). The units not listed
are EMPTY and offer nothing. -/
def walkOrder (f : Frozen) : List Nat :=
  let is := f.units.map Prod.fst
  is.filter (fun i => decide (f.start ≤ i)) ++ is.filter (fun i => decide (i < f.start))

/-- The allocation walk of a target over a range (R98). -/
def walk (f : Frozen) (shares : List ShareRec) (k : WalkTask) (target : Nat) : Walk :=
  (walkOrder f).foldl (walkUnit f shares k)
    { remaining := target, used := [], fresh := [], enlarged := [], lastUnit := none, stopped := false }

/-! ### Plans -/

/-- The plan of a job that plans nothing. -/
def Plan.nothing : Plan :=
  { works := false, removed := [], cut := [], reduced := [], continuations := [], enlarged := [],
    fresh := [], target := 0, placed := 0, poolStopped := false, lastUnit := none }

/-- A plan with the results of a walk. -/
def withWalk (p : Plan) (target : Nat) (w : Walk) : Plan :=
  { p with enlarged := w.enlarged, fresh := w.fresh, target := target, placed := target - w.remaining,
           poolStopped := w.stopped, lastUnit := w.lastUnit }

/-- The plan of an OFFER (R97, R98). -/
def planOffer (f : Frozen) (o : OfferReq) : Plan :=
  let target := backingTarget o.quantity f.holdback
  withWalk { Plan.nothing with works := true } target
    (walk f f.shares
      { product := o.product, first := o.first, count := o.count, free := f.free, entry := none } target)

/-! ### A replan's cuts and reliefs (R111 to R113) -/

/-- A replan under way: the working copy of the records, what it plans so far, and the removed power. -/
structure Repair where
  shares : List ShareRec
  removed : List Nat
  cut : List Nat
  reduced : List (Nat × Nat)
  continuations : List Continuation
  removedPower : Nat
deriving DecidableEq, Repr

/-- The number that stands for the planned continuation at a place, until it is numbered. -/
def placeholder (k : Nat) : Nat := Config.pool + k

/-- The free record numbers of the frozen copy, less the new records planned so far, which are continuations
(R101, R104, R113; log 14). -/
def repairFree (f : Frozen) (w : Repair) : Nat := f.free - w.continuations.length

/-- A record's part from the next slot on is given up whole: cut when it covers slot t, else removed
(R112). Its whole power joins the removed power. -/
def giveUp (t : Nat) (w : Repair) (r : ShareRec) : Repair :=
  if r.first ≤ t then
    { w with shares := w.shares.map fun x => if x.num = r.num then { x with last := t } else x
             cut := w.cut ++ [r.num], removedPower := w.removedPower + r.power }
  else
    { w with shares := w.shares.filter fun x => x.num ≠ r.num
             removed := w.removed ++ [r.num], removedPower := w.removedPower + r.power }

/-- R112 for one record. -/
def cutLost (f : Frozen) (w : Repair) (r : ShareRec) : Repair :=
  if (frozenUnit f r.unit).contributing then w else giveUp f.slot w r

/-- A unit is over-committed in a slot and direction by the records given: free energy or free power is
negative (R113). -/
def overIn (f : Frozen) (counts : DirClass → Bool) (energy power : Nat) (recs : List ShareRec) (t : Nat) :
    Bool :=
  decide (energy < spokenFor f counts recs t) || decide (power < heldPower counts recs t)

/-- A unit is over-committed in a slot, in a direction the class counts in (R113). -/
def overCommitted (f : Frozen) (u : FrozenUnit) (cls : DirClass) (recs : List ShareRec) (t : Nat) : Bool :=
  (countsUp cls && overIn f countsUp (deliverableUp u.soc u.floor u.energy u.eta) u.pd recs t) ||
    (countsDown cls && overIn f countsDown (absorbable u.soc u.ceiling u.energy) u.pc recs t)

/-- A record's unit is over-committed in a slot from `n` on, with the record's power lowered by `delta`
in the copy (R113). -/
def overWith (f : Frozen) (shares : List ShareRec) (n : Nat) (r : ShareRec) (delta : Nat) : Bool :=
  let recs := (shares.filter fun x => x.unit == r.unit).map fun x =>
    if x.num = r.num then { x with power := x.power - delta } else x
  let from_ := max n r.first
  (List.range (r.last + 1 - from_)).any fun k =>
    overCommitted f (frozenUnit f r.unit) r.cls recs (from_ + k)

/-- The reduction Δ of a record: the smallest multiple of 10 W below its power that leaves no
over-commitment, or its whole power (R113). -/
def reliefOf (f : Frozen) (shares : List ShareRec) (n : Nat) (r : ShareRec) : Nat :=
  (((List.range (r.power / 10 + 1)).map fun k => 10 * k).find? fun d =>
    decide (d < r.power) && !overWith f shares n r d).getD r.power

/-- R113 for one record. -/
def relieve (f : Frozen) (n : Nat) (w : Repair) (r : ShareRec) : Repair :=
  let delta := reliefOf f w.shares n r
  let left := r.power - delta
  if delta = 0 then w
  else if left < f.minShare then giveUp f.slot w r
  else if f.slot < r.first then
    { w with shares := w.shares.map fun x => if x.num = r.num then { x with power := left } else x
             reduced := w.reduced ++ [(r.num, left)], removedPower := w.removedPower + delta }
  else if repairFree f w = 0 ∨
      Config.unitRecords ≤ (w.shares.filter fun x => x.unit == r.unit).length then giveUp f.slot w r
  else
    let c : Continuation := { after := r.num, unit := r.unit, power := left, first := n, last := r.last }
    { w with
      shares := joinAfter r.num
        { num := placeholder w.continuations.length, entry := r.entry, unit := r.unit, cls := r.cls,
          power := left, first := n, last := r.last }
        (w.shares.map fun x => if x.num = r.num then { x with last := f.slot } else x)
      cut := w.cut ++ [r.num], continuations := w.continuations ++ [c]
      removedPower := w.removedPower + delta }

/-- The plan of a replan of an entry (R111 to R115). -/
def planReplan (f : Frozen) (number : Nat) (e : Entry) : Plan :=
  let n := max (f.slot + 1) e.first
  if lastSlot e < n then Plan.nothing
  else
    let reaching := (entryRecords f.shares number).filter fun r => decide (n ≤ r.last)
    let start : Repair :=
      { shares := f.shares, removed := [], cut := [], reduced := [], continuations := [], removedPower := 0 }
    let lost := reaching.foldl (cutLost f) start
    let kept := reaching.filter fun r => (frozenUnit f r.unit).contributing
    let w := kept.foldl (relieve f n) lost
    let target := w.removedPower + e.uncovered
    let base : Plan :=
      { Plan.nothing with works := true, removed := w.removed, cut := w.cut, reduced := w.reduced,
                          continuations := w.continuations }
    if target = 0 then base
    else
      withWalk base target
        (walk f w.shares
          { product := e.product, first := n, count := lastSlot e + 1 - n, free := repairFree f w,
            entry := some number } target)

/-! ### The arbiter (R84, R85) -/

/-- A job granted: it takes its frozen copy and plans on it (R86; log 19). -/
def grant (kind : JobKind) (s : State) : State :=
  let f := freeze s
  let plan := match kind with
    | .quote _ => Plan.nothing
    | .offer o => planOffer f o
    | .replan n e => planReplan f n e
  { s with eval := { s.eval with
      job := some { kind := kind, frozen := f, plan := plan, disturbed := false, boundaryTaken := false,
                    awardTaken := false } } }

/-- The TL request granted: it leaves the slot and the run count becomes 0 (R84). -/
def grantTl (r : TlRequest) (s : State) : State :=
  let s := { s with eval := { s.eval with slot := none, runCount := 0 } }
  match r with
  | .quote q => grant (.quote q) s
  | .offer o => grant (.offer o) s

/-- The TL request whose turn it is: one waits, and the run count is 4 or no replan flag is set (R84
step 1). -/
def tlTurn (s : State) : Option TlRequest :=
  match s.eval.slot with
  | none => none
  | some r => if s.eval.runCount = 4 ∨ s.eval.replans = [] then some r else none

/-- A flagged entry taken: its flag is cleared and the run count rises, held at 4 (R84 step 2). -/
def takeFlag (rest : List Nat) (s : State) : State :=
  { s with eval := { s.eval with replans := rest, runCount := min 4 (s.eval.runCount + 1) } }

/-- The entry of a granted replan, when it is still to be replanned (R85; log 20). -/
def replanEntry (s : State) (n : Nat) : Option Entry :=
  match entryOf s n with
  | none => none
  | some e => if nonTerminal e.state then some e else none

/-- The arbiter's decisions, until a job runs or nothing waits. A replan of an entry that is terminal is
dropped at grant, counted all the same, and the arbiter decides again (R84, R85). -/
def arbiterLoop : Nat → State → State
  | 0, s => s
  | fuel + 1, s =>
    match tlTurn s with
    | some r => grantTl r s
    | none =>
      match s.eval.replans with
      | [] => s
      | n :: rest =>
        match replanEntry (takeFlag rest s) n with
        | some e => grant (.replan n e) (takeFlag rest s)
        | none => arbiterLoop fuel (takeFlag rest s)

/-- The arbiter decides when no job is in flight (R84). -/
def arbitrate (s : State) : State :=
  match s.eval.job with
  | some _ => s
  | none => arbiterLoop (s.eval.replans.length + 1) s

/-! ### Writing results (R99, R108, R116) -/

/-- The start index after a walk whose results are written (R99). -/
def advanceStart (p : Plan) (s : State) : State :=
  match p.lastUnit with
  | none => s
  | some i => { s with eval := { s.eval with start := (i + 1) % Config.units } }

/-- The records a replan writes, in the order of R116: whole records freed, records cut and reduced,
continuations numbered and placed, enlargements made, new records numbered and appended. -/
def replanRecords (t number : Nat) (e : Entry) (p : Plan) (rs : List ShareRec) : List ShareRec :=
  let rs := rs.filter fun r => !p.removed.contains r.num
  let rs := rs.map fun r =>
    if p.cut.contains r.num then { r with last := t }
    else match p.reduced.find? fun q => q.1 == r.num with
      | some q => { r with power := q.2 }
      | none => r
  let nums := freeNumbers rs (p.continuations.length + p.fresh.length)
  let contNums := nums.take p.continuations.length
  let rs := (p.continuations.zip contNums).foldl (fun rs q =>
    joinAfter q.1.after
      { num := q.2, entry := number, unit := q.1.unit, cls := classOfProduct e.product, power := q.1.power,
        first := q.1.first, last := q.1.last } rs) rs
  let real := fun target =>
    if Config.pool ≤ target then contNums.getD (target - Config.pool) target else target
  let rs := rs.map fun r =>
    match p.enlarged.find? fun g => real g.target == r.num with
    | some g => { r with power := r.power + g.add }
    | none => r
  let first := max (t + 1) e.first
  writeNew ((nums.drop p.continuations.length).zip (p.fresh.map fun q =>
    { num := 0, entry := number, unit := q.1, cls := classOfProduct e.product, power := q.2,
      first := first, last := lastSlot e })) rs

/-- A replan's results written (R115, R116), with the change list served and the start index moved. -/
def writeReplan (j : Job) (number : Nat) (e now : Entry) (s : State) : State :=
  if j.plan.works = false then s
  else
    let uncovered := j.plan.target - j.plan.placed
    let s := setShares (replanRecords j.frozen.slot number e j.plan s.shares) s
    let s := setEntry number { now with uncovered := uncovered } s
    let s := if uncovered ≠ 0 ∨ now.uncovered ≠ 0 then placeChange number false s else s
    advanceStart j.plan s

/-- A replan job's completion, with the checks of R88. -/
def completeReplan (j : Job) (number : Nat) (e : Entry) (s : State) : State :=
  match entryOf s number with
  | none => s
  | some now =>
    if now.ref ≠ e.ref ∨ nonTerminal now.state = false then s
    else if j.boundaryTaken = true ∨ j.awardTaken = true then markEntries [number] s
    else
      let s := writeReplan j number e now s
      if j.disturbed then markEntries [number] s else s

/-- What an OFFER's walk comes to: the quantity it books, or the code that refuses it (R100, R101). -/
def offerOutcome (j : Job) (o : OfferReq) : Except AnswerCode Nat :=
  let supported := supportedKw j.plan.placed j.frozen.holdback
  if j.plan.placed = j.plan.target then .ok o.quantity
  else if 1 ≤ supported ∧ o.exact = false then .ok supported
  else .error (if j.plan.poolStopped then .poolFull else .insufficient)

/-- The records of an admitted offer, in allocation order, trimmed when the offer is clamped (R100, R102). -/
def offerRecords (j : Job) (o : OfferReq) (number booked : Nat) : List ShareRec :=
  let planned := j.plan.fresh.map fun q =>
    ({ num := 0, entry := number, unit := q.1, cls := classOfProduct o.product, power := q.2,
       first := o.first, last := o.first + o.count - 1 } : ShareRec)
  if j.plan.placed = j.plan.target then planned
  else trimRecords j.frozen.minShare (backingTarget booked j.frozen.holdback) planned

/-- The new entry of an admitted offer (R62). -/
def offeredEntry (o : OfferReq) (booked : Nat) : Entry :=
  { ref := o.ref, product := o.product, first := o.first, count := o.count, offered := booked,
    awarded := none, state := .offered, uncovered := 0 }

/-- An offer admitted under an entry number: the entry, its records, the start index, and the flag of a
disturbed job (R62, R87, R89, R108). -/
def admitOffer (j : Job) (o : OfferReq) (number booked : Nat) (s : State) : State :=
  let s := setEntry number (offeredEntry o booked) s
  let new := offerRecords j o number booked
  let s := setShares (writeNew ((freeNumbers s.shares new.length).zip new) s.shares) s
  let s := advanceStart j.plan s
  if j.disturbed then markEntries [number] s else s

end Sys2Proof.Machine
end

