-- ==== Sys2Proof/Machine/UpdateQueue.lean ====
section
/-! DEFINITION. The Update Queue: how a SET is handled, and the drain at a slot boundary (09, R159 to
R164). -/

namespace Sys2Proof.Machine

/-- Two settings are for the same field (R159). -/
def sameField : Setting → Setting → Bool
  | .floor _, .floor _ => true
  | .ceiling _, .ceiling _ => true
  | .excluded _, .excluded _ => true
  | _, _ => false

/-- A queue entry is for a unit and field (R160). -/
def queuedFor (i : Nat) (x : Setting) (q : QueuedSetting) : Bool := (q.unit == i) && sameField q.setting x

/-- The unit holds a share record (R105). -/
def holdsRecord (s : State) (i : Nat) : Bool := s.shares.any fun r => r.unit == i

/-- The queue with the entry of a unit and field replaced where it stands (R160, MERGED). -/
def mergeQueued (origin : Link) (i : Nat) (x : Setting) (qs : List QueuedSetting) : List QueuedSetting :=
  qs.map fun q => if queuedFor i x q then { origin := origin, unit := i, setting := x } else q

/-- A unit's f, c and excluded flag differ between two records (R164 step 3). -/
def limitsChanged (u v : UnitRec) : Bool :=
  !(decide (u.floor = v.floor) && decide (u.ceiling = v.ceiling) && decide (u.excluded = v.excluded))

/-- The unit is in the map of an origin link as the map stands (R164 step 1). -/
def inOriginMap (s : State) (origin : Link) (i : Nat) : Bool :=
  match mapOf s origin with
  | none => false
  | some m => permitted m i

/-- One entry of the queue drained (R164). -/
def drainOne (s : State) (q : QueuedSetting) : State :=
  if inOriginMap s q.origin q.unit then
    let s' := applySetting q.unit q.setting s
    if limitsChanged (unitOf s q.unit) (unitOf s' q.unit) && holdsRecord s' q.unit then
      markOnUnits (fun i => i == q.unit) s'
    else s'
  else s

/-- The drain: every entry in queue order, then the queue is empty (R164). -/
def drainQueue (s : State) : State := { s.queue.foldl drainOne s with queue := [] }

end Sys2Proof.Machine
end

