-- ==== Sys2Proof/Machine/TimeBase.lean ====
section
/-! DEFINITION. The Time Base: second steps and the slot boundary with every block's response to it
(01, R1; 95, TIME_MARK). -/

namespace Sys2Proof.Machine

/-- The running job learns that a slot boundary was taken (R88). -/
def noteBoundary (s : State) : State :=
  match s.eval.job with
  | none => s
  | some j => { s with eval := { s.eval with job := some { j with boundaryTaken := true } } }

/-- The Commitment Book's transitions, the Share Table's freeing and the Update Queue's drain at the
boundary into slot `t`. Where the drain falls among them is a free value (R164; log 6). -/
def boundaryTables (t : Nat) (s : State) : State :=
  if s.queue = [] then freeEnded t (bookBoundary t s)
  else
    match Config.drainOrder s.freeTick with
    | (true, true) => freeEnded t (bookBoundary t (drainQueue s))
    | (true, false) => bookBoundary t (drainQueue (freeEnded t s))
    | (false, true) => freeEnded t (drainQueue (bookBoundary t s))
    | (false, false) => drainQueue (freeEnded t (bookBoundary t s))

/-- The slot-boundary event into the slot that is current now (R1, R71 to R74, R118, R144, R149, R164). -/
def slotBoundary (s : State) : State :=
  let t := s.time.slot
  let s := closeAccumulators t (noteBoundary s)
  let s := openAccumulators t (boundaryTables t s)
  { s with freeTick := s.freeTick + 1 }

/-- A second step (R1). -/
def secondStep (s : State) : State :=
  if s.time.timeSet = false then s
  else if s.time.second < 899 then
    { s with time := { s.time with second := s.time.second + 1 } }
  else if s.time.slot = Config.maxSlot then { s with time := { s.time with second := 0 } }
  else slotBoundary { s with time := { s.time with second := 0, slot := s.time.slot + 1 } }

end Sys2Proof.Machine
end

