-- ==== Sys2Proof/Machine/Links.lean ====
section
/-! DEFINITION. The Link Interface: the requests and what each requires, the checks of a received frame,
owed answers, BUSY, the transmitter, and how a step ends (10, R165 to R176; 11, R178). -/

namespace Sys2Proof.Machine

/-! ### Requests (R167, R178) -/

/-- The requests of the class table. -/
inductive Request where
  | quote | offer | award | withdraw | discard | list | entry | take | margin | units | feeders
  | settings | map | time | gate | feeder | product | deadband | activate | override | clear | release
  | thresholds | lockShort | lineMode | dispatch | start | stop | engage | disengage | set | channels
deriving DecidableEq, Repr

/-- The frame code of a request (R178). -/
def requestCode : Request → Byte
  | .quote => 0x01#8 | .offer => 0x02#8 | .award => 0x03#8 | .withdraw => 0x04#8
  | .discard => 0x05#8 | .list => 0x06#8 | .entry => 0x07#8 | .take => 0x08#8
  | .margin => 0x09#8 | .units => 0x0A#8 | .feeders => 0x0B#8 | .settings => 0x0C#8
  | .map => 0x0D#8 | .time => 0x10#8 | .gate => 0x11#8 | .feeder => 0x12#8
  | .product => 0x13#8 | .deadband => 0x14#8 | .activate => 0x15#8 | .override => 0x16#8
  | .clear => 0x17#8 | .release => 0x18#8 | .thresholds => 0x19#8 | .lockShort => 0x1A#8
  | .lineMode => 0x1B#8 | .dispatch => 0x1C#8 | .start => 0x20#8 | .stop => 0x21#8
  | .engage => 0x22#8 | .disengage => 0x23#8 | .set => 0x24#8 | .channels => 0x25#8

/-- All requests, in the order of their codes. -/
def allRequests : List Request :=
  [.quote, .offer, .award, .withdraw, .discard, .list, .entry, .take, .margin, .units, .feeders] ++
  [.settings, .map, .time, .gate, .feeder, .product, .deadband, .activate, .override, .clear] ++
  [.release, .thresholds, .lockShort, .lineMode, .dispatch, .start, .stop, .engage, .disengage] ++
  [.set, .channels]

/-- The request a frame code names; none for an unknown code (R167 step 2, R178). -/
def requestOf (code : Byte) : Option Request := allRequests.find? fun q => requestCode q == code

/-- The length of a request's contents (R178). -/
def contentsLength : Request → Nat
  | .quote => 6 | .offer => 13 | .award => 8 | .withdraw => 6 | .discard => 6 | .list => 7
  | .entry => 4 | .take => 0 | .margin => 0 | .units => 3 | .feeders => 0 | .settings => 9
  | .map => 8 | .time => 7 | .gate => 1 | .feeder => 6 | .product => 3 | .deadband => 2
  | .activate => 4 | .override => 1 | .clear => 0 | .release => 6 | .thresholds => 6
  | .lockShort => 0 | .lineMode => 1 | .dispatch => 0 | .start => 1 | .stop => 1 | .engage => 1
  | .disengage => 1 | .set => 5 | .channels => 0

/-- The class table of R167. -/
def allowed : Request → LinkClass → Bool
  | .quote, .market => true
  | .offer, .market => true
  | .award, .market => true
  | .withdraw, .market => true
  | .discard, .market => true
  | .release, .operator => true
  | .list, .market => true
  | .list, .operator => true
  | .entry, .market => true
  | .entry, .operator => true
  | .take, .market => true
  | .margin, .market => true
  | .margin, .operator => true
  | .thresholds, .operator => true
  | .lockShort, .operator => true
  | .lineMode, .operator => true
  | .settings, .market => true
  | .units, .market => true
  | .units, .fleet => true
  | .feeders, .market => true
  | .feeder, .operator => true
  | .map, .market => true
  | .time, .operator => true
  | .gate, .operator => true
  | .product, .operator => true
  | .deadband, .operator => true
  | .activate, .operator => true
  | .override, .operator => true
  | .clear, .operator => true
  | .dispatch, .operator => true
  | .start, .fleet => true
  | .stop, .fleet => true
  | .engage, .fleet => true
  | .disengage, .fleet => true
  | .channels, .fleet => true
  | .set, .fleet => true
  | _, _ => false

/-- What a block gives back for a request: an answer code with its result, or nothing yet, for a QUOTE or
OFFER that waits for its job (R167 step 6). -/
inductive Reply where
  | answer (code : AnswerCode) (result : List Byte)
  | waits
deriving DecidableEq, Repr

/-- DONE with a result. -/
def done (result : List Byte) : Reply := .answer .done result

/-- A refusal, which carries no result (R178). -/
def refuse (code : AnswerCode) : Reply := .answer code []

/-! ### Owed answers (R167, R168, R169) -/

/-- An answer as formed now, with the time status as it stands (R7). -/
def formAnswer (s : State) (tag : Byte) (code : AnswerCode) (result : List Byte) : Answer :=
  { tag := tag, code := code, time := timeStatus s, result := result }

/-- A link owes one more answer; `ends` says that it answers the request in process (log 8). -/
def oweAnswer (l : Link) (tag : Byte) (code : AnswerCode) (result : List Byte) (ends : Bool) (s : State) :
    State :=
  setLink l { linkOf s l with
    answers := (linkOf s l).answers ++ [{ answer := formAnswer s tag code result, ends := ends }] } s

/-- A link owes a BUSY answer; one still owed takes the new frame's tag (R168; log 9). -/
def oweBusy (l : Link) (tag : Byte) (s : State) : State :=
  setLink l { linkOf s l with
    busy := some (match (linkOf s l).busy with
      | none => formAnswer s tag .busy []
      | some a => { a with tag := tag }) } s

/-- GL owes a telegram answer, which replaces one still owed (R169). -/
def oweTelegram (tag : Byte) (code : AnswerCode) (result : List Byte) (s : State) : State :=
  setLink .gl { linkOf s .gl with telegram := some (formAnswer s tag code result) } s

/-! ### The checks of a received frame (R167 steps 3 to 5, R172) -/

/-- The units or channels a FLEET request names are permitted to the link's map (R172). -/
def namesPermitted (m : UnitMap) (c : List Byte) : Request → Bool
  | .start => (maskChannels (readU c 0 1)).all (mapCovers m)
  | .stop => (maskChannels (readU c 0 1)).all (mapCovers m)
  | .engage => (maskChannels (readU c 0 1)).all (mapCovers m)
  | .disengage => (maskChannels (readU c 0 1)).all (mapCovers m)
  | .units => (List.range (readU c 2 1)).all fun k => permitted m (readU c 0 2 + k)
  | .set => permitted m (readU c 0 2)
  | _ => true

/-- The checks that step 4 of R167 makes beside the length: an empty channel mask, and a UNITS span out
of bounds. -/
def contentsRefusal (c : List Byte) : Request → Option AnswerCode
  | .start => if maskChannels (readU c 0 1) = [] then some .badRequest else none
  | .stop => if maskChannels (readU c 0 1) = [] then some .badRequest else none
  | .engage => if maskChannels (readU c 0 1) = [] then some .badRequest else none
  | .disengage => if maskChannels (readU c 0 1) = [] then some .badRequest else none
  | .units =>
    if readU c 2 1 = 0 ∨ 64 < readU c 2 1 ∨ 4095 < readU c 0 2 + readU c 2 1 - 1 then some .badRange
    else none
  | _ => none

/-- The code that steps 3 to 5 of R167 refuse a known request with; none when it is handed on. -/
def frameRefusal (q : Request) (l : Link) (c : List Byte) (s : State) : Option AnswerCode :=
  if allowed q (classOf l) = false then some .denied
  else if c.length ≠ contentsLength q then some .badRequest
  else match contentsRefusal c q with
    | some code => some code
    | none =>
      match mapOf s l with
      | none => none
      | some m => if namesPermitted m c q then none else some .denied

/-- The receiver returns to HUNTING when a frame is complete (R166). -/
def frameComplete (l : Link) (s : State) : State :=
  setLink l { linkOf s l with receiver := .hunting } s

/-- A request handed to its block becomes the request in process, and its answer is owed once formed
(R167 step 6). -/
def handOn (q : Request) (take : Link → List Byte → State → State × Reply) (l : Link) (tag : Byte)
    (c : List Byte) (s : State) : State :=
  let t := (take l c s).1
  let t := setLink l { linkOf t l with inProcess := some { code := requestCode q, tag := tag } } t
  match (take l c s).2 with
  | .answer code result => oweAnswer l tag code result true t
  | .waits => t

/-- A received frame with a known request code, other than a telegram on GL, judged by R167. -/
def receiveRequest (q : Request) (take : Link → List Byte → State → State × Reply) (l : Link) (tag : Byte)
    (c : List Byte) (s : State) : State :=
  let s := frameComplete l s
  if (linkOf s l).inProcess.isSome then oweBusy l tag s
  else match frameRefusal q l c s with
    | some code => oweAnswer l tag code [] false s
    | none => handOn q take l tag c s

/-- A received frame with an unknown request code (R167 steps 1 and 2). -/
def receiveUnknown (l : Link) (tag : Byte) (s : State) : State :=
  let s := frameComplete l s
  if (linkOf s l).inProcess.isSome then oweBusy l tag s
  else oweAnswer l tag .badRequest [] false s

/-! ### The transmitter (R170, R175) -/

/-- The first pending kind in the kind order (R175). -/
def firstNotice (f : NoticeFlags) : Option NoticeKind := kindOrder.find? (noticeGet f)

/-- The change list emptied and its more flag cleared, as the sending of an ENTRY notice does (R75). -/
def emptyChanges (s : State) : State := { s with book := { s.book with changes := [], more := false } }

/-- The sending of a notice begins: its contents are formed and its flag cleared; an ENTRY notice empties
the change list (R175). -/
def sendNotice (l : Link) (k : NoticeKind) (s : State) : State :=
  let s' := setLink l { linkOf s l with
    notices := noticeSet (linkOf s l).notices k false
    tx := .sending (.notice k) (noticeWire k (timeStatus s) (noticeContents s k)) } s
  if k = .entry then emptyChanges s' else s'

/-- A FREE transmitter sends the first of the frames that wait for it (R170). -/
def kickTx (l : Link) (s : State) : State :=
  let r := linkOf s l
  if r.tx = .free then
    match r.telegram with
    | some a => setLink l { r with telegram := none, tx := .sending .telegram (answerWire a) } s
    | none =>
      match r.answers with
      | o :: rest =>
        setLink l { r with answers := rest, tx := .sending (.answer o.ends) (answerWire o.answer) } s
      | [] =>
        match r.busy with
        | some a => setLink l { r with busy := none, tx := .sending .busy (answerWire a) } s
        | none =>
          match firstNotice r.notices with
          | some k => sendNotice l k s
          | none => s
  else s

/-- A frame has been sent in full: the transmitter is FREE, and an answer to the request in process ends
it (R167, R170). -/
def endSending (l : Link) (s : State) : State :=
  match (linkOf s l).tx with
  | .free => s
  | .sending (.answer true) _ => setLink l { linkOf s l with tx := .free, inProcess := none } s
  | .sending _ _ => setLink l { linkOf s l with tx := .free } s

/-! ### The end of a step -/

/-- The frame that a FREE transmitter would take next is a TIME_MARK notice (R170). -/
def timeMarkNext (r : LinkRec) : Bool :=
  decide (r.tx = .free) && r.telegram.isNone && r.answers.isEmpty && r.busy.isNone &&
    decide (firstNotice r.notices = some .timeMark)

/-- The TIME_MARK notice of an expiry of the mark watch still waits for the time mark that falls together with
that expiry: the mark's own notice then finds the flag set, and the link receives one notice for both (R3;
log 30). -/
def noticeWaits (l : Link) (s : State) : Bool :=
  decide (s.pending.head? = some .timeMark) && Config.fallsTogether s.pending.length &&
    timeMarkNext (linkOf s l)

/-- A link's transmitter at the end of a step: it takes what waits (R170), unless the step is an `expiry` of the
mark watch and what waits is its notice, which the next command's notice joins (R3). -/
def serveLink (expiry : Bool) (l : Link) (s : State) : State :=
  if expiry && noticeWaits l s then s else kickTx l s

/-- How a step ends: the FREE channel lines take what waits for them (R32), the arbiter decides (R84), and the
FREE transmitters take what waits for them (R170; log 5). Only the step that is an `expiry` of the mark watch may
leave a notice waiting, on the two links that R3 names. -/
def settleWith (expiry : Bool) (s : State) : State :=
  kickTx .fb (kickTx .fa (serveLink expiry .gl (serveLink expiry .tl (arbitrate (kickLines s)))))

/-- How every step but an expiry of the mark watch ends. -/
def settle (s : State) : State := settleWith false s

/-- A command's effect on a part that is not held in reset; while the reset line is asserted nothing but
its release has an effect (log 2). -/
def effect (f : State → State) (s : State) : Host.Outcome State Fault Refusal :=
  if s.resetHeld then .next s else .next (settle (f s))

end Sys2Proof.Machine
end

