-- ==== Sys2Proof/Machine/ChannelEvents.lean ====
section
/-! DEFINITION. Events on the fleet channels and the exchange timer: the end of a frame's sending, an
answer, the reply wait's expiry, a stray frame, the timer (03, R31 to R33, R44, R52). -/

namespace Sys2Proof.Machine

/-- Writes a channel's line. -/
def setLine (c : Nat) (line : ChannelLine) (s : State) : State :=
  setChannel c { channelOf s c with line := line } s

/-- A channel frame has been sent in full: HALT leaves the line FREE, any other frame puts it in AWAITING
with the reply timeout in force (R32, R33). -/
def endChannelSending (c : Nat) (s : State) : State :=
  match (channelOf s c).line with
  | .sending frame owner _ =>
    if frame = .halt then setLine c .free s
    else setLine c (.awaiting frame owner s.ctl.replyTimeout) s
  | .free => s
  | .awaiting _ _ _ => s

/-- CHANNEL_FRAME_SENT, R32. -/
def execChannelFrameSent (c : Fin 8) (s : State) : Host.Outcome State Fault Refusal :=
  effect (endChannelSending c.val) s

/-- A frame from a concentrator: during a reply wait it is judged and ends the wait; else it is discarded
(R31, R33). -/
def takeAnswer (c : Nat) (chars : List RxChar) (s : State) : State :=
  match (channelOf s c).line with
  | .awaiting frame owner _ =>
    let p := judgeAnswer (channelOf s c) frame chars
    handOutcome c owner p.1 p.2 (setLine c .free s)
  | .free => s
  | .sending _ _ _ => s

/-- CHANNEL_ANSWER, R33. -/
def execChannelAnswer (c : Fin 8) (chars : List RxChar) (s : State) :
    Host.Outcome State Fault Refusal :=
  effect (takeAnswer c.val chars) s

/-- The reply wait expires: the outcome is TIMEOUT (R33). -/
def takeReplyWait (c : Nat) (s : State) : State :=
  match (channelOf s c).line with
  | .awaiting _ owner _ => handOutcome c owner .timeout [] (setLine c .free s)
  | .free => s
  | .sending _ _ _ => s

/-- REPLY_WAIT_EXPIRY, R33. -/
def execReplyWaitExpiry (c : Fin 8) (s : State) : Host.Outcome State Fault Refusal :=
  effect (takeReplyWait c.val) s

/-- A frame that finds no reply wait is discarded (R31, R33). The command is discarded on an AWAITING line
as well: a frame that arrives there is a CHANNEL_ANSWER (log 34). -/
def discardStray (_ : Nat) (_ : List RxChar) (s : State) : State := s

/-- STRAY_CHANNEL_FRAME, R31. -/
def execStrayChannelFrame (c : Fin 8) (chars : List RxChar) (s : State) :
    Host.Outcome State Fault Refusal :=
  effect (discardStray c.val chars) s

/-- The exchange timer expires: it runs on, and a round begins or the overrun flag is set (R44, R52). -/
def takeExchangeTimer (s : State) : State :=
  if s.ctl.exchangeTimer.isSome then
    let s := { s with ctl := { s.ctl with exchangeTimer := some s.ctl.period } }
    if s.ctl.round.isSome then { s with ctl := { s.ctl with overrun := true } } else beginRound s
  else s

/-- EXCHANGE_TIMER_EXPIRY, R44 and R52. -/
def execExchangeTimerExpiry (s : State) : Host.Outcome State Fault Refusal := effect takeExchangeTimer s

end Sys2Proof.Machine
end

