-- ==== Sys2Proof/Machine/JobEvents.lean ====
section
/-! DEFINITION. The completions of the Evaluator's jobs (05, R88, R89, R96, R100; 04, R62). -/

namespace Sys2Proof.Machine

/-- The Evaluator falls free. -/
def dropJob (s : State) : State := { s with eval := { s.eval with job := none } }

/-- The answer to the TL request in process; with none in process there is nobody to answer (log 24). -/
def answerTl (code : AnswerCode) (result : List Byte) (s : State) : State :=
  match (linkOf s .tl).inProcess with
  | none => s
  | some p => oweAnswer .tl p.tag code result true s

/-- What a QUOTE answers (R96). -/
def quoteForm (f : Frozen) (q : QuoteReq) : List Byte :=
  let raw := rawHeadroom f q.product q.first q.count
  putU 1 (productCode q.product) ++ putU 4 q.first ++ putU 1 q.count ++ putU 4 f.slot ++
    putU 1 f.holdback ++ putU 4 raw ++ putU 2 (min 65535 (supportedKw raw f.holdback))

/-- An admitted OFFER's answer (R62). -/
def offerForm (n : Nat) (e : Entry) : List Byte :=
  putU 2 n ++ putU 4 e.ref ++ putU 2 e.offered ++ putU 1 (entryStateCode e.state)

/-- An OFFER whose job books a quantity, at the Commitment Book (R62). -/
def bookOffer (j : Job) (o : OfferReq) (booked : Nat) (s : State) : State :=
  if o.first ≤ s.time.slot + s.time.gate then answerTl .tooLate [] s
  else match lowestFreeEntry s with
    | none => answerTl .bookFull [] s
    | some n => answerTl .done (offerForm n (offeredEntry o booked)) (admitOffer j o n booked s)

/-- An OFFER's job completed (R89, R100). -/
def completeOffer (j : Job) (o : OfferReq) (s : State) : State :=
  match offerOutcome j o with
  | .ok booked => bookOffer j o booked s
  | .error code =>
    answerTl code (putU 4 j.plan.placed ++ putU 2 (supportedKw j.plan.placed j.frozen.holdback)) s

/-- A TL job completes. Without one in flight the event cannot happen (log 3). -/
def takeTlComplete (s : State) : State :=
  match s.eval.job with
  | none => s
  | some j =>
    match j.kind with
    | .quote q => dropJob (answerTl .done (quoteForm j.frozen q) s)
    | .offer o => dropJob (completeOffer j o s)
    | .replan _ _ => s

/-- TL_JOB_COMPLETE, R89. -/
def execTlJobComplete (s : State) : Host.Outcome State Fault Refusal := effect takeTlComplete s

/-- A replan job completes. Without one in flight the event cannot happen (log 3). -/
def takeReplanComplete (s : State) : State :=
  match s.eval.job with
  | none => s
  | some j =>
    match j.kind with
    | .replan n e => dropJob (completeReplan j n e s)
    | .quote _ => s
    | .offer _ => s

/-- REPLAN_COMPLETE, R88. -/
def execReplanComplete (s : State) : Host.Outcome State Fault Refusal := effect takeReplanComplete s

end Sys2Proof.Machine
end

