-- ==== Sys2Proof/Machine/BookRequests.lean ====
section
/-! DEFINITION. The requests of the Commitment Book and the Evaluator: PRODUCT, OFFER, QUOTE, AWARD,
WITHDRAW, DISCARD, RELEASE, LIST, ENTRY (04, R60 to R69, R78, R79; 05, R81, R82). -/

namespace Sys2Proof.Machine

/-! ### PRODUCT (R60) -/

/-- A product's row as an answer carries it. -/
def productForm (t : ProductTable) (p : Product) : List Byte :=
  putU 1 (dirCode (classOfProduct p)) ++ putU 2 (enduranceOf t p)

/-- An entry of the product is not terminal, or an OFFER of it waits or runs (R60). -/
def productHeld (s : State) (p : Product) : Bool :=
  (s.book.entries.any fun q => decide (q.2.product = p) && nonTerminal q.2.state) ||
    (offersInProgress s).any fun o => decide (o.product = p)

/-- An endurance PRODUCT may set: 300 to 3600 in multiples of 60 (R59). -/
def enduranceFits (v : Nat) : Bool := decide (300 ≤ v) && decide (v ≤ 3600) && decide (v % 60 = 0)

/-- PRODUCT for a known product (R60). -/
def setProduct (p : Product) (v : Nat) (s : State) : State × Reply :=
  if v = 0 then (s, done (productForm s.book.endurance p))
  else if enduranceFits v = false then (s, refuse .badRange)
  else if productHeld s p then (s, refuse .wrongState)
  else
    let t := setEndurance s.book.endurance p v
    ({ s with book := { s.book with endurance := t } }, done (productForm t p))

/-- PRODUCT taken by the Commitment Book (R60). -/
def takeProduct (_ : Link) (c : List Byte) (s : State) : State × Reply :=
  match productOf (readU c 0 1) with
  | none => (s, refuse .badRequest)
  | some p => setProduct p (readU c 1 2) s

/-- PRODUCT, R60. -/
def execProduct (l : Link) (tag : Byte) (c : List Byte) (s : State) : Host.Outcome State Fault Refusal :=
  effect (receiveRequest .product takeProduct l tag c) s

/-! ### OFFER (R61, R81) -/

/-- The request placed in the TL job slot (R81). -/
def placeTl (r : TlRequest) (s : State) : State := { s with eval := { s.eval with slot := some r } }

/-- Checks 2 to 7 of R61; none when the OFFER passes. -/
def offerRefusal (s : State) (ref first n quantity : Nat) : Option AnswerCode :=
  if lowestFreeEntry s = none then some .bookFull
  else if (s.book.entries.any fun q => decide (q.2.ref = ref)) = true then some .duplicateRef
  else if first ≤ s.time.slot + s.time.gate then some .tooLate
  else if s.time.slot + Config.horizon < first then some .badRange
  else if n < 1 ∨ Config.maxSlots < n ∨ 4294967294 < first + n - 1 then some .badRange
  else if quantity < 1 ∨ 65535 < quantity then some .badRange
  else none

/-- OFFER taken by the Evaluator and the Commitment Book (R61, R81). -/
def takeOffer (_ : Link) (c : List Byte) (s : State) : State × Reply :=
  if s.time.timeSet = false then (s, refuse .noTime)
  else match productOf (readU c 4 1) with
    | none => (s, refuse .badRequest)
    | some p =>
      match offerRefusal s (readU c 0 4) (readU c 5 4) (readU c 9 1) (readU c 10 2) with
      | some code => (s, refuse code)
      | none =>
        (placeTl (.offer { ref := readU c 0 4, product := p, first := readU c 5 4, count := readU c 9 1,
                           quantity := readU c 10 2, exact := readBit c 12 0 }) s, .waits)

/-- OFFER, R61. -/
def execOffer (l : Link) (tag : Byte) (c : List Byte) (s : State) : Host.Outcome State Fault Refusal :=
  effect (receiveRequest .offer takeOffer l tag c) s

/-! ### QUOTE (R81, R82) -/

/-- Checks 2 and 3 of R82; true when the QUOTE is refused BAD_RANGE. -/
def quoteOutOfRange (s : State) (first n : Nat) : Bool :=
  decide (n < 1) || decide (Config.maxSlots < n) || decide (4294967295 < first + n - 1) ||
    decide (first < s.time.slot + 1) || decide (s.time.slot + Config.horizon < first)

/-- QUOTE taken by the Evaluator (R81, R82). -/
def takeQuote (_ : Link) (c : List Byte) (s : State) : State × Reply :=
  if s.time.timeSet = false then (s, refuse .noTime)
  else match productOf (readU c 0 1) with
    | none => (s, refuse .badRequest)
    | some p =>
      if quoteOutOfRange s (readU c 1 4) (readU c 5 1) then (s, refuse .badRange)
      else
        (placeTl (.quote { product := p, first := readU c 1 4, count := readU c 5 1 }) s, .waits)

/-- QUOTE, R82. -/
def execQuote (l : Link) (tag : Byte) (c : List Byte) (s : State) : Host.Outcome State Fault Refusal :=
  effect (receiveRequest .quote takeQuote l tag c) s

/-! ### AWARD (R63, R64, R110) -/

/-- The running job learns that an AWARD was taken for the entry it replans (R88). -/
def noteAward (n : Nat) (s : State) : State :=
  match s.eval.job with
  | none => s
  | some j =>
    match j.kind with
    | .replan m _ =>
      if m = n then { s with eval := { s.eval with job := some { j with awardTaken := true } } } else s
    | .quote _ => s
    | .offer _ => s

/-- The entry's records after the trim to the backing target of `awarded` kW (R109, R110). -/
def awardedRecords (s : State) (n awarded : Nat) : List ShareRec :=
  trimRecords s.eval.minShare (backingTarget awarded s.eval.holdback) (entryRecords s.shares n)

/-- The entry as awarded: its uncovered W is held within the target (R63, R110). -/
def awardedEntry (s : State) (n awarded : Nat) (e : Entry) : Entry :=
  { e with state := .awarded, awarded := some awarded,
           uncovered := min e.uncovered
             (backingTarget awarded s.eval.holdback - powerSum (awardedRecords s n awarded)) }

/-- An entry awarded with its backing trimmed (R63, R110). -/
def awardEntry (n awarded : Nat) (e : Entry) (s : State) : State :=
  noteAward n (setEntry n (awardedEntry s n awarded e)
    (setShares (replaceEntryRecords n (awardedRecords s n awarded) s.shares) s))

/-- AWARD of `a` kW for an entry found (R63 steps 3 and 4, R64). -/
def awardFound (n a : Nat) (e : Entry) (s : State) : State × Reply :=
  if e.state = .lapsed then (s, refuse .tooLate)
  else if e.state ≠ .offered then (s, refuse .wrongState)
  else if a = 0 then
    (endEntry n e .withdrawn s, done (putU 2 n ++ putU 1 (entryStateCode .withdrawn) ++ putU 2 0))
  else
    let awarded := min a e.offered
    (awardEntry n awarded e s,
     done (putU 2 n ++ putU 1 (entryStateCode .awarded) ++ putU 2 e.offered ++ putU 2 awarded))

/-- AWARD taken by the Commitment Book (R63). -/
def takeAward (_ : Link) (c : List Byte) (s : State) : State × Reply :=
  if s.time.timeSet = false then (s, refuse .noTime)
  else match findEntry s (readU c 0 2) (readU c 2 4) with
    | .error code => (s, refuse code)
    | .ok e => awardFound (readU c 0 2) (readU c 6 2) e s

/-- AWARD, R63. -/
def execAward (l : Link) (tag : Byte) (c : List Byte) (s : State) : Host.Outcome State Fault Refusal :=
  effect (receiveRequest .award takeAward l tag c) s

/-! ### WITHDRAW (R66) -/

/-- WITHDRAW of an entry found, by its state (R66). -/
def withdrawFound (n : Nat) (e : Entry) (s : State) : State × Reply :=
  if beforeGate e then
    (endEntry n e .withdrawn s, done (putU 2 n ++ putU 1 (entryStateCode .withdrawn)))
  else if nonTerminal e.state then (s, refuse .locked)
  else (s, refuse .wrongState)

/-- WITHDRAW taken by the Commitment Book (R66). -/
def takeWithdraw (_ : Link) (c : List Byte) (s : State) : State × Reply :=
  match findEntry s (readU c 0 2) (readU c 2 4) with
  | .error code => (s, refuse code)
  | .ok e => withdrawFound (readU c 0 2) e s

/-- WITHDRAW, R66. -/
def execWithdraw (l : Link) (tag : Byte) (c : List Byte) (s : State) : Host.Outcome State Fault Refusal :=
  effect (receiveRequest .withdraw takeWithdraw l tag c) s

/-! ### DISCARD (R68) -/

/-- An entry number freed, with its replan flag cleared. -/
def freeNumber (n : Nat) (s : State) : State :=
  unmarkEntry n { s with book := { s.book with entries := tableErase s.book.entries n } }

/-- An ENDED or RELEASED entry with a delivery record not yet emitted (R68 step 2, R149). -/
def recordOwed (n : Nat) (e : Entry) (s : State) : Bool :=
  (decide (e.state = .ended) || decide (e.state = .released)) && (tableFind s.track.held n).isSome

/-- DISCARD of an entry found (R68). -/
def discardFound (n : Nat) (e : Entry) (s : State) : State × Reply :=
  if nonTerminal e.state then (s, refuse .wrongState)
  else if recordOwed n e s then (s, refuse .wrongState)
  else (freeNumber n s, done [])

/-- DISCARD taken by the Commitment Book (R68). -/
def takeDiscard (_ : Link) (c : List Byte) (s : State) : State × Reply :=
  match findEntry s (readU c 0 2) (readU c 2 4) with
  | .error code => (s, refuse code)
  | .ok e => discardFound (readU c 0 2) e s

/-- DISCARD, R68. -/
def execDiscard (l : Link) (tag : Byte) (c : List Byte) (s : State) : Host.Outcome State Fault Refusal :=
  effect (receiveRequest .discard takeDiscard l tag c) s

/-! ### RELEASE (R69, R150) -/

/-- An entry released: an ACTIVE entry's record is emitted at once, its records are freed, and it is
placed on the change list. -/
def releaseEntry (n : Nat) (e : Entry) (s : State) : State :=
  let s := if e.state = .active then emitReleased n s else s
  placeChange n true (endEntry n e .released s)

/-- RELEASE of an entry found, by its state (R69). -/
def releaseFound (n : Nat) (e : Entry) (s : State) : State × Reply :=
  if e.state = .awarded ∨ e.state = .locked ∨ e.state = .active then
    (releaseEntry n e s, done (putU 2 n ++ putU 4 e.ref ++ putU 1 (entryStateCode .released)))
  else (s, refuse .wrongState)

/-- RELEASE taken by the Commitment Book (R69). -/
def takeRelease (_ : Link) (c : List Byte) (s : State) : State × Reply :=
  match findEntry s (readU c 0 2) (readU c 2 4) with
  | .error code => (s, refuse code)
  | .ok e => releaseFound (readU c 0 2) e s

/-- RELEASE, R69. -/
def execRelease (l : Link) (tag : Byte) (c : List Byte) (s : State) : Host.Outcome State Fault Refusal :=
  effect (receiveRequest .release takeRelease l tag c) s

/-! ### LIST (R78) -/

/-- A LIST answer: up to 16 entries of the reading, and the more flag. -/
def listForm (s : State) (reading : List (Nat × Entry)) : List Byte :=
  putU 1 (reading.take 16).length ++ putFlags [decide (16 < reading.length)] ++
    (reading.take 16).flatMap fun p => entrySummary s p.1 p.2

/-- LIST taken by the Commitment Book (R78). -/
def takeList (_ : Link) (c : List Byte) (s : State) : State × Reply :=
  if readBit c 0 0 = false ∧ 1023 < readU c 5 2 then (s, refuse .badRange)
  else
    (s, done (listForm s
      (bookReading s (readBit c 0 0) (readBit c 0 1) (readU c 1 4) (readU c 5 2))))

/-- LIST, R78. -/
def execList (l : Link) (tag : Byte) (c : List Byte) (s : State) : Host.Outcome State Fault Refusal :=
  effect (receiveRequest .list takeList l tag c) s

/-! ### ENTRY (R79) -/

/-- An ENTRY answer: the summary, the record count and power sum, and one page of records. -/
def entryForm (s : State) (n page : Nat) (e : Entry) : List Byte :=
  let rs := entryRecords s.shares n
  let shown := (rs.drop (32 * page)).take 32
  entrySummary s n e ++ putU 2 rs.length ++ putU 4 (powerSum rs) ++ putU 1 shown.length ++
    shown.flatMap shareForm

/-- ENTRY taken by the Commitment Book; the entry is found by its number alone (R58, R79). -/
def takeEntry (_ : Link) (c : List Byte) (s : State) : State × Reply :=
  if 1023 < readU c 0 2 then (s, refuse .badRange)
  else match entryOf s (readU c 0 2) with
    | none => (s, refuse .noEntry)
    | some e =>
      if 1023 < readU c 2 2 then (s, refuse .badRange)
      else (s, done (entryForm s (readU c 0 2) (readU c 2 2) e))

/-- ENTRY, R79. -/
def execEntry (l : Link) (tag : Byte) (c : List Byte) (s : State) : Host.Outcome State Fault Refusal :=
  effect (receiveRequest .entry takeEntry l tag c) s

end Sys2Proof.Machine
end

