-- ==== Sys2Proof/Machine/ChannelRequests.lean ====
section
/-! DEFINITION. The FLEET requests that act on channels: START, STOP, ENGAGE, DISENGAGE, CHANNELS (03, R34,
R40 to R42, R55). An empty mask is refused at step 4 of R167. -/

namespace Sys2Proof.Machine

/-- The channels a request's mask names, in ascending order (R178; log 33). -/
def named (c : List Byte) : List Nat := maskChannels (readU c 0 1)

/-- Every named channel is in a state. -/
def allIn (s : State) (st : ChannelState) (cs : List Nat) : Bool :=
  cs.all fun c => decide ((channelOf s c).state = st)

/-- A unit of a channel's span holds a share record (R34). -/
def spanHoldsRecord (s : State) (c : Nat) : Bool := s.shares.any fun r => channelOfUnit r.unit == c

/-- START taken by the controller (R34). -/
def takeStart (_ : Link) (c : List Byte) (s : State) : State × Reply :=
  if allIn s .stopped (named c) = false then (s, refuse .wrongState)
  else if (named c).any (spanHoldsRecord s) then (s, refuse .recordsHeld)
  else ((named c).foldl startChannel s, done [])

/-- START, R34. -/
def execStart (l : Link) (tag : Byte) (c : List Byte) (s : State) : Host.Outcome State Fault Refusal :=
  effect (receiveRequest .start takeStart l tag c) s

/-- A channel is outstanding in the round in flight. -/
def outstandingNow (s : State) (k : Nat) : Bool :=
  match s.ctl.round with
  | none => false
  | some r => r.outstanding.contains k

/-- The order in which STOP treats the channels it names: those that the round in flight does not wait for, then
those it waits for, so that a round whose every channel is stopped completes when the last of them is (R51;
log 33). -/
def stopOrder (s : State) (cs : List Nat) : List Nat :=
  cs.filter (fun k => !outstandingNow s k) ++ cs.filter (outstandingNow s)

/-- STOP taken by the controller (R40). The named channels are stopped one after another (log 33). -/
def takeStop (_ : Link) (c : List Byte) (s : State) : State × Reply :=
  ((stopOrder s (named c)).foldl stopChannel s, done [])

/-- STOP, R40. -/
def execStop (l : Link) (tag : Byte) (c : List Byte) (s : State) : Host.Outcome State Fault Refusal :=
  effect (receiveRequest .stop takeStop l tag c) s

/-- ENGAGE taken by the controller: the channels become RUNNING, then the entries with uncovered W are
marked (R41), and the units of the channels raise the events of their exclusion that they owe (R162). -/
def takeEngage (_ : Link) (c : List Byte) (s : State) : State × Reply :=
  if allIn s .idling (named c) = false then (s, refuse .wrongState)
  else
    (raiseOwed (fun i => (named c).contains (channelOfUnit i))
      (contributionGained ((named c).foldl engageChannel s)), done [])

/-- ENGAGE, R41. -/
def execEngage (l : Link) (tag : Byte) (c : List Byte) (s : State) : Host.Outcome State Fault Refusal :=
  effect (receiveRequest .engage takeEngage l tag c) s

/-- DISENGAGE taken by the controller (R42). -/
def takeDisengage (_ : Link) (c : List Byte) (s : State) : State × Reply :=
  if allIn s .running (named c) = false then (s, refuse .wrongState)
  else ((named c).foldl disengageChannel s, done [])

/-- DISENGAGE, R42. -/
def execDisengage (l : Link) (tag : Byte) (c : List Byte) (s : State) : Host.Outcome State Fault Refusal :=
  effect (receiveRequest .disengage takeDisengage l tag c) s

/-- What CHANNELS answers (R55). -/
def channelsForm (s : State) : List Byte :=
  putU 2 s.ctl.period ++ putU 2 s.ctl.replyTimeout ++ putU 1 (if s.ctl.overrun then 1 else 0) ++
    channelMask s.ctl.failedMask ++ channelStatuses s

/-- CHANNELS taken by the controller: the read clears the overrun flag (R55). -/
def takeChannels (_ : Link) (_ : List Byte) (s : State) : State × Reply :=
  ({ s with ctl := { s.ctl with overrun := false } }, done (channelsForm s))

/-- CHANNELS, R55. -/
def execChannels (l : Link) (tag : Byte) (c : List Byte) (s : State) : Host.Outcome State Fault Refusal :=
  effect (receiveRequest .channels takeChannels l tag c) s

end Sys2Proof.Machine
end

