-- ==== Sys2Proof/Machine/DispatchRequests.lean ====
section
/-! DEFINITION. The Dispatcher's requests and inputs: DEADBAND, ACTIVATE, OVERRIDE, CLEAR, DISPATCH, the
frequency sample line and its watch, the silence timer (07, R122, R123, R125 to R130, R142; 11, R179). -/

namespace Sys2Proof.Machine

/-! ### DEADBAND (R125) -/

/-- DEADBAND taken by the Dispatcher. -/
def takeDeadband (_ : Link) (c : List Byte) (s : State) : State × Reply :=
  if readBit c 0 0 = false then (s, done (putU 1 s.disp.deadband))
  else if 50 < readU c 1 1 then (s, refuse .badRange)
  else ({ s with disp := { s.disp with deadband := readU c 1 1 } }, done (putU 1 (readU c 1 1)))

/-- DEADBAND, R125. -/
def execDeadband (l : Link) (tag : Byte) (c : List Byte) (s : State) : Host.Outcome State Fault Refusal :=
  effect (receiveRequest .deadband takeDeadband l tag c) s

/-! ### ACTIVATE (R126, R169) -/

/-- What an accepted telegram answers. -/
def telegramForm (s : State) : List Byte :=
  putU 2 s.disp.requestedU ++ putU 2 s.disp.requestedD ++ putU 1 (if s.disp.silent then 1 else 0) ++
    putU 1 (overrideCode s.disp.override)

/-- A quantity stored by a telegram; a keep-alive stores none (R126 step 2). -/
def storeRequested (keep : Bool) (product : Nat) (r : Nat) (s : State) : State :=
  if keep then s
  else if product = 2 then { s with disp := { s.disp with requestedU := r } }
  else { s with disp := { s.disp with requestedD := r } }

/-- The silence timer restarted, and a silence ended (R126 steps 3 and 4). -/
def endSilence (s : State) : State :=
  let s' := { s with disp := { s.disp with silenceTimer := some 10000, silent := false } }
  if s.disp.silent then raiseTlGl .operatorSilent s' else s'

/-- A telegram handed to the Dispatcher (R126). -/
def takeActivate (_ : Link) (c : List Byte) (s : State) : State × Reply :=
  let keep := readBit c 0 0
  let p := readU c 1 1
  if keep = false ∧ p ≠ 2 ∧ p ≠ 3 then (s, refuse .badRequest)
  else
    let t := endSilence (storeRequested keep p (readU c 2 2) s)
    (t, done (telegramForm t))

/-- A telegram on GL: judged for its length, taken whether or not a request is in process, and answered
as a telegram (R169). A refused telegram's answer also replaces a telegram answer still owed (log 36). -/
def receiveTelegram (tag : Byte) (c : List Byte) (s : State) : State :=
  let s := frameComplete .gl s
  if c.length ≠ contentsLength .activate then oweTelegram tag .badRequest [] s
  else match (takeActivate .gl c s).2 with
    | .answer code result => oweTelegram tag code result (takeActivate .gl c s).1
    | .waits => (takeActivate .gl c s).1

/-- An ACTIVATE frame on a link: a telegram on GL, a request of another class elsewhere. -/
def receiveActivate (l : Link) (tag : Byte) (c : List Byte) (s : State) : State :=
  match l with
  | .gl => receiveTelegram tag c s
  | .tl => receiveRequest .activate takeActivate .tl tag c s
  | .fa => receiveRequest .activate takeActivate .fa tag c s
  | .fb => receiveRequest .activate takeActivate .fb tag c s

/-- ACTIVATE, R126 and R169. -/
def execActivate (l : Link) (tag : Byte) (c : List Byte) (s : State) : Host.Outcome State Fault Refusal :=
  effect (receiveActivate l tag c) s

/-! ### OVERRIDE and CLEAR (R129, R130) -/

/-- An override put in force; HALT asks for HALT and the re-arming ARM on every IDLING or RUNNING channel
(R53, R129). -/
def putOverride (o : Override) (s : State) : State :=
  let s := raiseOverride { s with disp := { s.disp with override := o } }
  if o = .halt then (roundChannels s).foldl haltChannel s else s

/-- OVERRIDE taken by the Dispatcher (R129). -/
def takeOverride (_ : Link) (c : List Byte) (s : State) : State × Reply :=
  match overrideOf (readU c 0 1) with
  | none => (s, refuse .badRequest)
  | some o =>
    if s.disp.override ≠ .none then (s, refuse .overrideActive)
    else (putOverride o s, done (putU 1 (overrideCode o)))

/-- OVERRIDE, R129. -/
def execOverride (l : Link) (tag : Byte) (c : List Byte) (s : State) : Host.Outcome State Fault Refusal :=
  effect (receiveRequest .override takeOverride l tag c) s

/-- CLEAR taken by the Dispatcher (R130). -/
def takeClear (_ : Link) (_ : List Byte) (s : State) : State × Reply :=
  if s.disp.override = .none then (s, refuse .wrongState)
  else (raiseOverride { s with disp := { s.disp with override := .none } }, done [])

/-- CLEAR, R130. -/
def execClear (l : Link) (tag : Byte) (c : List Byte) (s : State) : Host.Outcome State Fault Refusal :=
  effect (receiveRequest .clear takeClear l tag c) s

/-! ### DISPATCH (R142) -/

/-- DISPATCH taken by the Dispatcher. -/
def takeDispatch (_ : Link) (_ : List Byte) (s : State) : State × Reply := (s, done (dispatchForm s))

/-- DISPATCH, R142. -/
def execDispatch (l : Link) (tag : Byte) (c : List Byte) (s : State) : Host.Outcome State Fault Refusal :=
  effect (receiveRequest .dispatch takeDispatch l tag c) s

/-! ### The frequency sample line (R122, R123, R179) -/

/-- A valid sample lies in −5000 to +5000 mHz (R122). -/
def validDeviation (d : Int) : Bool := decide (-5000 ≤ d) && decide (d ≤ 5000)

/-- A complete sample frame whose check matched (R122). -/
def takeSample (d : Int) (s : State) : State :=
  if validDeviation d then
    let s' := { s with disp := { s.disp with
      sample := some d, frequencyWatch := some 1000, freqLost := false } }
    if s.disp.freqLost then raiseTlGl .freqLost s' else s'
  else s

/-- One byte on the frequency sample line (R179). -/
def sampleByte (s : State) (b : Byte) : State :=
  let p := receiveSampleByte s.disp.receiver b
  let s := { s with disp := { s.disp with receiver := p.1 } }
  match p.2 with
  | none => s
  | some d => takeSample d s

/-- FREQUENCY_SAMPLE, R122 and R179. -/
def execFrequencySample (bytes : List Byte) (s : State) : Host.Outcome State Fault Refusal :=
  effect (fun s => bytes.foldl sampleByte s) s

/-- The bytes of an unfinished sample frame discarded (R179). -/
def dropSampleBytes (s : State) : State := { s with disp := { s.disp with receiver := .hunting } }

/-- SAMPLE_BYTE_TIMEOUT, R179. -/
def execSampleByteTimeout (s : State) : Host.Outcome State Fault Refusal := effect dropSampleBytes s

/-- The frequency watch expires; a watch that does not run cannot expire (R123; log 3). -/
def takeFrequencyWatch (s : State) : State :=
  if s.disp.frequencyWatch.isSome then
    raiseTlGl .freqLost { s with disp := { s.disp with
      sample := none, frequencyWatch := none, freqLost := true } }
  else s

/-- FREQUENCY_WATCH_EXPIRY, R123. -/
def execFrequencyWatchExpiry (s : State) : Host.Outcome State Fault Refusal := effect takeFrequencyWatch s

/-! ### SILENCE_TIMER_EXPIRY (R127) -/

/-- The silence timer expires; a timer that does not run cannot expire (R127; log 3). -/
def takeSilence (s : State) : State :=
  if s.disp.silenceTimer.isSome then
    raiseTlGl .operatorSilent { s with disp := { s.disp with
      requestedU := 0, requestedD := 0, silent := true, silenceTimer := none } }
  else s

/-- SILENCE_TIMER_EXPIRY, R127. -/
def execSilenceTimerExpiry (s : State) : Host.Outcome State Fault Refusal := effect takeSilence s

end Sys2Proof.Machine
end

