-- ==== Sys2Proof/Machine/MonitorRequests.lean ====
section
/-! DEFINITION. The requests of the Delivery Tracker and the Margin Monitor: TAKE, MARGIN, THRESHOLDS,
LOCK_SHORT, LINE_MODE (08, R152, R156 to R158). -/

namespace Sys2Proof.Machine

/-! ### TAKE (R152) -/

/-- TAKE: the oldest delivery record leaves the queue. -/
def takeTake (_ : Link) (_ : List Byte) (s : State) : State × Reply :=
  match s.track.queue with
  | [] => (s, refuse .empty)
  | r :: rest =>
    ({ s with track := { s.track with queue := rest } }, done (deliveryForm r ++ putU 2 rest.length))

/-- TAKE, R152. -/
def execTake (l : Link) (tag : Byte) (c : List Byte) (s : State) : Host.Outcome State Fault Refusal :=
  effect (receiveRequest .take takeTake l tag c) s

/-! ### MARGIN (R156) -/

/-- The line after a MARGIN read: LATCHED releases it. -/
def lineAfterRead (m : MarginMonitor) : Bool :=
  match m.mode with
  | .level => m.asserted
  | .latched => false

/-- MARGIN: the monitor's figures with the line as it stood before the read. -/
def takeMargin (_ : Link) (_ : List Byte) (s : State) : State × Reply :=
  ({ s with margin := { s.margin with asserted := lineAfterRead s.margin } }, done (marginForm s.margin))

/-- MARGIN, R156. -/
def execMargin (l : Link) (tag : Byte) (c : List Byte) (s : State) : Host.Outcome State Fault Refusal :=
  effect (receiveRequest .margin takeMargin l tag c) s

/-! ### THRESHOLDS and LOCK_SHORT (R157) -/

/-- The thresholds as answers carry them. -/
def thresholdsForm (m : MarginMonitor) : List Byte :=
  putU 2 m.warn ++ putU 2 m.short ++ putU 1 m.hysteresis ++ putU 1 (if m.lock then 1 else 0)

/-- The fields of a THRESHOLDS request. -/
structure ThresholdsReq where
  change : Bool
  warn : Nat
  short : Nat
  hysteresis : Nat
deriving DecidableEq, Repr

/-- The fields as the contents carry them (R178). -/
def readThresholds (c : List Byte) : ThresholdsReq :=
  { change := readBit c 0 0, warn := readU c 1 2, short := readU c 3 2, hysteresis := readU c 5 1 }

/-- Step 1 of R157: a value outside its range. -/
def thresholdsOutOfRange (r : ThresholdsReq) : Bool :=
  (decide (r.warn ≠ 0) && (decide (r.warn < 1000) || decide (2000 < r.warn))) ||
  (decide (r.short ≠ 0) && (decide (r.short < 800) || decide (1500 < r.short))) ||
  (r.change && !([0, 10, 25, 50].contains r.hysteresis))

/-- Step 3 of R157: the values stored, and the clamp of SHORT above WARN. -/
def storeThresholds (r : ThresholdsReq) (m : MarginMonitor) : MarginMonitor :=
  let w := if r.warn = 0 then m.warn else r.warn
  let t := if r.short = 0 then m.short else r.short
  { m with
    warn := if w < t ∧ m.lock = true then t else w
    short := if w < t ∧ m.lock = false then w else t
    hysteresis := if r.change then r.hysteresis else m.hysteresis }

/-- THRESHOLDS taken by the Margin Monitor (R157). -/
def takeThresholds (_ : Link) (c : List Byte) (s : State) : State × Reply :=
  let r := readThresholds c
  if thresholdsOutOfRange r then (s, refuse .badRange)
  else if s.margin.lock = true ∧ r.short ≠ 0 ∧ r.short ≠ s.margin.short then (s, refuse .locked)
  else
    let m := storeThresholds r s.margin
    ({ s with margin := m }, done (thresholdsForm m))

/-- THRESHOLDS, R157. -/
def execThresholds (l : Link) (tag : Byte) (c : List Byte) (s : State) :
    Host.Outcome State Fault Refusal :=
  effect (receiveRequest .thresholds takeThresholds l tag c) s

/-- LOCK_SHORT taken by the Margin Monitor (R157). -/
def takeLockShort (_ : Link) (_ : List Byte) (s : State) : State × Reply :=
  let m := { s.margin with lock := true }
  ({ s with margin := m }, done (thresholdsForm m))

/-- LOCK_SHORT, R157. -/
def execLockShort (l : Link) (tag : Byte) (c : List Byte) (s : State) :
    Host.Outcome State Fault Refusal :=
  effect (receiveRequest .lockShort takeLockShort l tag c) s

/-! ### LINE_MODE (R158) -/

/-- A line mode stored, with the line set at once on a change. -/
def storeMode (v : LineMode) (m : MarginMonitor) : MarginMonitor :=
  if v = m.mode then m
  else match v with
    | .level => { m with mode := .level, asserted := decide (m.overall ≠ .sound) }
    | .latched => { m with mode := .latched, asserted := false }

/-- The mode and the line as an answer carries them. -/
def lineForm (m : MarginMonitor) : List Byte :=
  putU 1 (lineModeCode m.mode) ++ putU 1 (if m.asserted then 1 else 0)

/-- LINE_MODE taken by the Margin Monitor: 0 queries, 1 is LEVEL, 2 is LATCHED (R158). -/
def takeLineMode (_ : Link) (c : List Byte) (s : State) : State × Reply :=
  match readU c 0 1 with
  | 0 => (s, done (lineForm s.margin))
  | 1 => ({ s with margin := storeMode .level s.margin }, done (lineForm (storeMode .level s.margin)))
  | 2 => ({ s with margin := storeMode .latched s.margin }, done (lineForm (storeMode .latched s.margin)))
  | _ => (s, refuse .badRequest)

/-- LINE_MODE, R158. -/
def execLineMode (l : Link) (tag : Byte) (c : List Byte) (s : State) :
    Host.Outcome State Fault Refusal :=
  effect (receiveRequest .lineMode takeLineMode l tag c) s

end Sys2Proof.Machine
end

