-- ==== Sys2Proof/Machine/OwnerRequests.lean ====
section
/-! DEFINITION. SET, and MAP with the unit maps it writes (09, R160; 10, R171, R173). -/

namespace Sys2Proof.Machine

/-! ### SET (R160) -/

/-- The unit's limits after a SET, as its answer carries them. -/
def limitsForm (u : UnitRec) : List Byte := putU 2 u.floor ++ putU 2 u.ceiling ++ putFlags [u.excluded]

/-- What an accepted SET answers: outcome, position (0 for APPLIED), entries in the queue, limits. -/
def setForm (s : State) (outcome position i : Nat) : List Byte :=
  putU 1 outcome ++ putU 1 position ++ putU 1 s.queue.length ++ limitsForm (unitOf s i)

/-- A setting that merges with the queue entry of its unit and field. -/
def mergeSetting (l : Link) (i : Nat) (x : Setting) (s : State) : State :=
  { s with queue := mergeQueued l i x s.queue }

/-- A setting appended to the queue. -/
def appendSetting (l : Link) (i : Nat) (x : Setting) (s : State) : State :=
  { s with queue := s.queue ++ [{ origin := l, unit := i, setting := x }] }

/-- A setting handled by the unit and the queue as they stand (R160). -/
def handleSetting (l : Link) (i : Nat) (x : Setting) (s : State) : State × Reply :=
  if s.queue.any (queuedFor i x) then
    (mergeSetting l i x s, done (setForm (mergeSetting l i x s) 3 (s.queue.findIdx (queuedFor i x) + 1) i))
  else if holdsRecord s i = false then
    (applySetting i x s, done (setForm (applySetting i x s) 1 0 i))
  else if Config.updateQueue ≤ s.queue.length then (s, refuse .queueFull)
  else
    (appendSetting l i x s, done (setForm (appendSetting l i x s) 2 (s.queue.length + 1) i))

/-- SET taken by the Update Queue (R160). -/
def takeSet (l : Link) (c : List Byte) (s : State) : State × Reply :=
  match settingOf (readU c 2 1) (readU c 3 2) with
  | none => (s, refuse .badRequest)
  | some x => handleSetting l (readU c 0 2) x s

/-- SET, R160. -/
def execSet (l : Link) (tag : Byte) (c : List Byte) (s : State) : Host.Outcome State Fault Refusal :=
  effect (receiveRequest .set takeSet l tag c) s

/-! ### MAP (R171, R173) -/

/-- The marks of the indices below a limit. -/
def marksBelow (n : Nat) : BitVec 4096 := BitVec.ofNat 4096 (2 ^ n - 1)

/-- The marks of a span. -/
def marksOfSpan (first count : Nat) : BitVec 4096 := marksBelow count <<< first

/-- The number of marks set. -/
def marksSet (m : UnitMap) : Nat := ((List.range Config.units).filter fun i => m.marks.getLsbD i).length

/-- A map with a new limit: the marks at and above it are removed (R171). -/
def withLimit (m : UnitMap) (limit : Nat) : UnitMap :=
  { limit := limit, marks := m.marks &&& marksBelow limit }

/-- Every mark of a span takes the mark value (R173). -/
def withSpan (m : UnitMap) (first count : Nat) (v : Bool) : UnitMap :=
  { m with marks := if v then m.marks ||| marksOfSpan first count
                    else m.marks &&& ~~~(marksOfSpan first count) }

/-- A map as an answer carries it. -/
def mapForm (m : UnitMap) : List Byte := putU 2 m.limit ++ putU 2 (marksSet m)

/-- Writes the unit map of a fleet link. -/
def setMap (l : Link) (m : UnitMap) (s : State) : State :=
  match l with
  | .fa => { s with links := { s.links with mapA := m } }
  | .fb => { s with links := { s.links with mapB := m } }
  | .tl => s
  | .gl => s

/-- The other fleet link. -/
def otherFleet : Link → Link
  | .fa => .fb
  | .fb => .fa
  | .tl => .tl
  | .gl => .gl

/-- The unit map of a fleet link, empty for the other links. -/
def fleetMap (s : State) (l : Link) : UnitMap := (mapOf s l).getD UnitMap.reset

/-- A unit of a span is permitted in a map (R173 step 3). -/
def spanPermitted (m : UnitMap) (first count : Nat) : Bool :=
  (List.range count).any fun k => permitted m (first + k)

/-- MAP for a selected link (R173). -/
def mapSelected (l : Link) (c : List Byte) (s : State) : State × Reply :=
  let limit := readU c 2 2
  let first := readU c 4 2
  let count := readU c 6 2
  if readBit c 1 0 then (s, done (mapForm (fleetMap s l)))
  else if Config.units < limit then (s, refuse .badRange)
  else if 0 < count ∧ limit < first + count then (s, refuse .badRange)
  else if readBit c 1 1 = true ∧ spanPermitted (fleetMap s (otherFleet l)) first count = true then
    (s, refuse .overlap)
  else
    let m := withSpan (withLimit (fleetMap s l) limit) first count (readBit c 1 1)
    (setMap l m s, done (mapForm m))

/-- MAP taken by the Link Interface (R173). -/
def takeMap (_ : Link) (c : List Byte) (s : State) : State × Reply :=
  match selectorOf (readU c 0 1) with
  | none => (s, refuse .badRequest)
  | some l => mapSelected l c s

/-- MAP, R173. -/
def execMap (l : Link) (tag : Byte) (c : List Byte) (s : State) : Host.Outcome State Fault Refusal :=
  effect (receiveRequest .map takeMap l tag c) s

end Sys2Proof.Machine
end

