-- ==== Sys2Proof/Machine/TimeRequests.lean ====
section
/-! DEFINITION. The Time Base's commands: the time mark, the mark watch, the holdover second timer, TIME
and GATE (01, R2 to R5, R8). -/

namespace Sys2Proof.Machine

/-! ### TIME_MARK (R2) -/

/-- A time mark taken: a second step outside holdover, or the end of holdover. -/
def takeTimeMark (s : State) : State :=
  if s.time.holdover then
    raiseTlGl .timeMark { s with time := { s.time with
      holdover := false, holdoverTimer := none, markWatch := some 2000 } }
  else
    let s := secondStep s
    { s with time := { s.time with markWatch := some 2000 } }

/-- TIME_MARK, R2. -/
def execTimeMark (s : State) : Host.Outcome State Fault Refusal := effect takeTimeMark s

/-! ### MARK_WATCH_EXPIRY (R3) -/

/-- Entry into holdover: the flag, two second steps, the holdover second timer, the notice. -/
def enterHoldover (s : State) : State :=
  let s := { s with time := { s.time with holdover := true, markWatch := none } }
  let s := secondStep (secondStep s)
  raiseTlGl .timeMark { s with time := { s.time with holdoverTimer := some 1000 } }

/-- The mark watch expires; a watch that does not run cannot expire (log 3). -/
def takeMarkWatch (s : State) : State :=
  if s.time.markWatch.isSome then enterHoldover s else s

/-- MARK_WATCH_EXPIRY, R3. Its TIME_MARK notice may wait for a mark that falls together with it (log 30). -/
def execMarkWatchExpiry (s : State) : Host.Outcome State Fault Refusal :=
  if s.resetHeld then .next s else .next (settleWith s.time.markWatch.isSome (takeMarkWatch s))

/-! ### HOLDOVER_SECOND_TIMER_EXPIRY (R4) -/

/-- The holdover second timer expires: a second step, and the timer starts again. -/
def takeHoldoverSecond (s : State) : State :=
  if s.time.holdoverTimer.isSome then
    let s := secondStep s
    { s with time := { s.time with holdoverTimer := some 1000 } }
  else s

/-- HOLDOVER_SECOND_TIMER_EXPIRY, R4. -/
def execHoldoverSecondTimerExpiry (s : State) : Host.Outcome State Fault Refusal :=
  effect takeHoldoverSecond s

/-! ### TIME (R5) -/

/-- A second written by TIME; in holdover the second timer restarts. -/
def writeSecond (v : Nat) (s : State) : State :=
  { s with time := { s.time with
      second := v, holdoverTimer := if s.time.holdover then some 1000 else s.time.holdoverTimer } }

/-- A time written while time was unset. -/
def firstTime (slot v : Nat) (s : State) : State :=
  let s := writeSecond v s
  raiseTlGl .timeMark { s with time := { s.time with timeSet := true, slot := slot } }

/-- TIME taken by the Time Base (R5). Its answer's time status stands in the answer itself (log 11). -/
def takeTime (_ : Link) (c : List Byte) (s : State) : State × Reply :=
  let slot := readU c 1 4
  let second := readU c 5 2
  if readBit c 0 0 = false then (s, done [])
  else if 899 < second then (s, refuse .badRange)
  else if s.time.timeSet = false then
    if Config.maxSetSlot < slot then (s, refuse .badRange)
    else (firstTime slot second s, done [])
  else if slot ≠ s.time.slot then (s, refuse .wrongState)
  else (writeSecond second s, done [])

/-- TIME, R5. -/
def execTime (l : Link) (tag : Byte) (c : List Byte) (s : State) : Host.Outcome State Fault Refusal :=
  effect (receiveRequest .time takeTime l tag c) s

/-! ### GATE (R8) -/

/-- An entry has yet to pass its gate, or an OFFER waits or runs. -/
def gateHeld (s : State) : Bool :=
  (s.book.entries.any fun p => beforeGate p.2) || !(offersInProgress s).isEmpty

/-- GATE taken by the Time Base (R8). -/
def takeGate (_ : Link) (c : List Byte) (s : State) : State × Reply :=
  let v := readU c 0 1
  if v = 0 then (s, done (putU 1 s.time.gate))
  else if 8 < v then (s, refuse .badRange)
  else if gateHeld s then (s, refuse .wrongState)
  else ({ s with time := { s.time with gate := v } }, done (putU 1 v))

/-- GATE, R8. -/
def execGate (l : Link) (tag : Byte) (c : List Byte) (s : State) : Host.Outcome State Fault Refusal :=
  effect (receiveRequest .gate takeGate l tag c) s

end Sys2Proof.Machine
end

