-- ==== Sys2Proof/Machine/UnitRequests.lean ====
section
/-! DEFINITION. The Unit Table's requests and SETTINGS: FEEDER, FEEDERS, UNITS, SETTINGS (02, R17, R23 to
R25, R30; 03, R43; 05, R90). -/

namespace Sys2Proof.Machine

/-! ### FEEDER (R23, R24) -/

/-- What a lowered limit marks: the non-terminal entries with a record on a unit of the group that ends
after the current slot (R24), and a running job that plans on the group's units (R87). -/
def feederLowered (g : Nat) (s : State) : State :=
  let inGroup := fun i => (unitOf s i).feeder == g
  disturb inGroup (markEntries
    (entriesWithRecord s fun r => inGroup r.unit && decide (s.time.slot < r.last)) s)

/-- A group's limits replaced. -/
def writeFeeder (g : Nat) (f : FeederLimits) (s : State) : State :=
  let old := feederOf s g
  let s := setFeeder g f s
  if f.exportKw < old.exportKw ∨ f.importKw < old.importKw then feederLowered g s else s

/-- A group's limits as an answer carries them. -/
def feederForm (f : FeederLimits) : List Byte := putU 2 f.exportKw ++ putU 2 f.importKw

/-- FEEDER taken by the Unit Table (R23). -/
def takeFeeder (_ : Link) (c : List Byte) (s : State) : State × Reply :=
  let g := readU c 1 1
  let f : FeederLimits := { exportKw := readU c 2 2, importKw := readU c 4 2 }
  if 63 < g then (s, refuse .badRange)
  else if readBit c 0 0 = false then (s, done (feederForm (feederOf s g)))
  else (writeFeeder g f s, done (feederForm f))

/-- FEEDER, R23. -/
def execFeeder (l : Link) (tag : Byte) (c : List Byte) (s : State) : Host.Outcome State Fault Refusal :=
  effect (receiveRequest .feeder takeFeeder l tag c) s

/-! ### FEEDERS (R25) -/

/-- The limits of all 64 groups, in order. -/
def feedersForm (s : State) : List Byte :=
  (List.range Config.feeders).flatMap fun g => feederForm (feederOf s g)

/-- FEEDERS taken by the Unit Table (R25). -/
def takeFeeders (_ : Link) (_ : List Byte) (s : State) : State × Reply := (s, done (feedersForm s))

/-- FEEDERS, R25. -/
def execFeeders (l : Link) (tag : Byte) (c : List Byte) (s : State) : Host.Outcome State Fault Refusal :=
  effect (receiveRequest .feeders takeFeeders l tag c) s

/-! ### UNITS (R30) -/

/-- The statuses of a span of units, after their count. -/
def unitsForm (s : State) (first count : Nat) : List Byte :=
  putU 1 count ++ (List.range count).flatMap fun k => unitStatus s (first + k)

/-- UNITS taken by the Unit Table (R30). The span has been judged at step 4 of R167. -/
def takeUnits (_ : Link) (c : List Byte) (s : State) : State × Reply :=
  (s, done (unitsForm s (readU c 0 2) (readU c 2 1)))

/-- UNITS, R30. -/
def execUnits (l : Link) (tag : Byte) (c : List Byte) (s : State) : Host.Outcome State Fault Refusal :=
  effect (receiveRequest .units takeUnits l tag c) s

/-! ### SETTINGS (R17, R43, R90) -/

/-- The fields of a SETTINGS request. -/
structure SettingsReq where
  change : Bool
  holdback : Nat
  minShare : Nat
  period : Nat
  timeout : Nat
  lost : Nat
deriving DecidableEq, Repr

/-- The fields as the contents carry them (R178). -/
def readSettings (c : List Byte) : SettingsReq :=
  { change := readBit c 0 0, holdback := readU c 1 1, minShare := readU c 2 2, period := readU c 4 2,
    timeout := readU c 6 2, lost := readU c 8 1 }

/-- A field of the request lies outside its range (R17, R43, R90). The holdback is judged when its change
flag is set (log 12). -/
def settingsOutOfRange (r : SettingsReq) : Bool :=
  (r.change && decide (200 < r.holdback)) ||
  (decide (r.minShare ≠ 0) &&
    (decide (r.minShare % 10 ≠ 0) || decide (r.minShare < 10) || decide (1000 < r.minShare))) ||
  (decide (r.period ≠ 0) &&
    (decide (r.period % 50 ≠ 0) || decide (r.period < 100) || decide (1000 < r.period))) ||
  (decide (r.timeout ≠ 0) && (decide (r.timeout < 10) || decide (250 < r.timeout))) ||
  decide (r.lost = 1) || decide (32 < r.lost)

/-- A field that 0 leaves unchanged. -/
def orKeep (v old : Nat) : Nat := if v = 0 then old else v

/-- A new exchange period is asked for while a channel is not STOPPED (R43). -/
def periodHeld (r : SettingsReq) (s : State) : Bool :=
  decide (orKeep r.period s.ctl.period ≠ s.ctl.period) &&
    (List.range 8).any fun c => decide ((channelOf s c).state ≠ .stopped)

/-- The exchange period and the reply timeout stored, and the exchange timer restarted when the period
differs (R43). -/
def writePeriod (r : SettingsReq) (s : State) : State :=
  let p := orKeep r.period s.ctl.period
  { s with ctl := { s.ctl with
      period := p
      replyTimeout := min (orKeep r.timeout s.ctl.replyTimeout) (p - 10)
      exchangeTimer := if p ≠ s.ctl.period then some p else s.ctl.exchangeTimer } }

/-- The holdback and the minimum share stored (R90). -/
def writeHoldback (r : SettingsReq) (s : State) : State :=
  { s with eval := { s.eval with
      holdback := if r.change then r.holdback else s.eval.holdback
      minShare := orKeep r.minShare s.eval.minShare } }

/-- An accepted SETTINGS, with the arbiter's decision on what it marks (log 12). -/
def writeSettings (r : SettingsReq) (s : State) : State :=
  let s := writePeriod r (writeHoldback r s)
  arbitrate (if r.lost = 0 then s else applyLostLimit r.lost s)

/-- What an accepted SETTINGS answers (R90). -/
def settingsForm (s : State) : List Byte :=
  putU 1 s.eval.holdback ++ putU 2 s.eval.minShare ++ putU 2 s.ctl.period ++ putU 2 s.ctl.replyTimeout ++
    putU 1 s.fleet.lostLimit ++ putU 2 s.eval.start ++ putU 2 s.eval.replans.length ++
    putU 1 (jobCode s.eval.job)

/-- SETTINGS taken (R17, R43, R90). -/
def takeSettings (_ : Link) (c : List Byte) (s : State) : State × Reply :=
  let r := readSettings c
  if settingsOutOfRange r then (s, refuse .badRange)
  else if periodHeld r s then (s, refuse .wrongState)
  else (writeSettings r s, done (settingsForm (writeSettings r s)))

/-- SETTINGS, R90. -/
def execSettings (l : Link) (tag : Byte) (c : List Byte) (s : State) : Host.Outcome State Fault Refusal :=
  effect (receiveRequest .settings takeSettings l tag c) s

end Sys2Proof.Machine
end

