-- ==== Sys2Proof/Machine/LinkEvents.lean ====
section
/-! DEFINITION. Events on the master links: any received frame, BUSY, an unknown request code, discarded
frames, the intercharacter timeout, and the end of a frame's sending (10, R166 to R170). -/

namespace Sys2Proof.Machine

/-- How the block that owns a request takes it (R167 step 6). -/
def takeOf : Request → Link → List Byte → State → State × Reply
  | .quote => takeQuote | .offer => takeOffer | .award => takeAward | .withdraw => takeWithdraw
  | .discard => takeDiscard | .list => takeList | .entry => takeEntry | .take => takeTake
  | .margin => takeMargin | .units => takeUnits | .feeders => takeFeeders
  | .settings => takeSettings | .map => takeMap | .time => takeTime | .gate => takeGate
  | .feeder => takeFeeder | .product => takeProduct | .deadband => takeDeadband
  | .activate => takeActivate | .override => takeOverride | .clear => takeClear
  | .release => takeRelease | .thresholds => takeThresholds | .lockShort => takeLockShort
  | .lineMode => takeLineMode | .dispatch => takeDispatch | .start => takeStart | .stop => takeStop
  | .engage => takeEngage | .disengage => takeDisengage | .set => takeSet | .channels => takeChannels

/-- A received frame, by its code: an unknown code, a telegram on GL, or a request (R167, R169). -/
def receiveFrame (l : Link) (code tag : Byte) (c : List Byte) (s : State) : State :=
  match requestOf code with
  | none => receiveUnknown l tag s
  | some q =>
    if q = .activate ∧ l = .gl then receiveTelegram tag c s
    else receiveRequest q (takeOf q) l tag c s

/-- BUSY, R168: a received frame that finds a request in process is answered BUSY unless it is a telegram
on GL. -/
def execBusy (l : Link) (code tag : Byte) (c : List Byte) (s : State) :
    Host.Outcome State Fault Refusal :=
  effect (receiveFrame l code tag c) s

/-- UNKNOWN_REQUEST_CODE, R167 step 2. -/
def execUnknownRequestCode (l : Link) (code tag : Byte) (c : List Byte) (s : State) :
    Host.Outcome State Fault Refusal :=
  effect (receiveFrame l code tag c) s

/-- Writes a link's receiver. -/
def setReceiver (l : Link) (r : Receiver) (s : State) : State :=
  setLink l { linkOf s l with receiver := r } s

/-- One character on a link: the receiver takes it, and a frame it completes is received (R166). -/
def receiveLinkChar (l : Link) (s : State) (ch : RxChar) : State :=
  let p := receiveChar (linkOf s l).receiver ch
  let s := setReceiver l p.1 s
  match p.2 with
  | none => s
  | some (code, tag, c) => receiveFrame l code tag c s

/-- DISCARDED_FRAME, R166: characters on a link, through its receiver (log 23). -/
def execDiscardedFrame (l : Link) (chars : List RxChar) (s : State) :
    Host.Outcome State Fault Refusal :=
  effect (fun s => chars.foldl (receiveLinkChar l) s) s

/-- INTERCHARACTER_TIMEOUT, R166: the frame being received is discarded. -/
def execIntercharacterTimeout (l : Link) (s : State) : Host.Outcome State Fault Refusal :=
  effect (setReceiver l .hunting) s

/-- FRAME_SENT, R170. -/
def execFrameSent (l : Link) (s : State) : Host.Outcome State Fault Refusal := effect (endSending l) s

end Sys2Proof.Machine
end

