-- ==== Sys2Proof/Machine/ResetEvents.lean ====
section
/-! DEFINITION. RESET and the release of reset (00, Reset; 02, R10; 03, R31; and the reset column of every
chapter's state). -/

namespace Sys2Proof.Machine

/-- The part held in reset: every block at its reset values, no timer running (log 2). The queue of
commands and the free-value counter are the model's own and outlive it (log 28). -/
def heldInReset (s : State) : State :=
  { State.reset with
    time := { State.reset.time with markWatch := none }
    ctl := { State.reset.ctl with exchangeTimer := none }
    disp := { State.reset.disp with frequencyWatch := none }
    resetHeld := true, freeTick := s.freeTick, pending := s.pending }

/-- RESET, R10: power-on, or the reset line asserted. -/
def execReset (s : State) : Host.Outcome State Fault Refusal := .next (heldInReset s)

/-- The timers that start at the release of reset: the mark watch (R3), the exchange timer (R31) and the
frequency watch (R121). -/
def startTimers (s : State) : State :=
  { s with
    time := { s.time with markWatch := some 2000 }
    ctl := { s.ctl with exchangeTimer := some s.ctl.period }
    disp := { s.disp with frequencyWatch := some 1000 }
    resetHeld := false }

/-- RELEASE_OF_RESET, R31. A line that is not asserted cannot be released (log 3). -/
def execReleaseOfReset (s : State) : Host.Outcome State Fault Refusal :=
  .next (if s.resetHeld then startTimers s else s)

end Sys2Proof.Machine
end

