-- ==== Sys2Proof/Machine/Dispatch.lean ====
section
/-! DEFINITION. exec: one arm for each command, each one call of its meaning. -/

namespace Sys2Proof.Machine

/-- A command's effect on everything but the queue. -/
def exec (i : Instr) (s : State) : Host.Outcome State Fault Refusal :=
  match i with
  | .reset => Sys2Proof.Machine.execReset s
  | .timeMark => Sys2Proof.Machine.execTimeMark s
  | .markWatchExpiry => Sys2Proof.Machine.execMarkWatchExpiry s
  | .holdoverSecondTimerExpiry => Sys2Proof.Machine.execHoldoverSecondTimerExpiry s
  | .time l tag c => Sys2Proof.Machine.execTime l tag c s
  | .gate l tag c => Sys2Proof.Machine.execGate l tag c s
  | .feeder l tag c => Sys2Proof.Machine.execFeeder l tag c s
  | .feeders l tag c => Sys2Proof.Machine.execFeeders l tag c s
  | .units l tag c => Sys2Proof.Machine.execUnits l tag c s
  | .settings l tag c => Sys2Proof.Machine.execSettings l tag c s
  | .start l tag c => Sys2Proof.Machine.execStart l tag c s
  | .stop l tag c => Sys2Proof.Machine.execStop l tag c s
  | .engage l tag c => Sys2Proof.Machine.execEngage l tag c s
  | .disengage l tag c => Sys2Proof.Machine.execDisengage l tag c s
  | .channels l tag c => Sys2Proof.Machine.execChannels l tag c s
  | .product l tag c => Sys2Proof.Machine.execProduct l tag c s
  | .offer l tag c => Sys2Proof.Machine.execOffer l tag c s
  | .quote l tag c => Sys2Proof.Machine.execQuote l tag c s
  | .award l tag c => Sys2Proof.Machine.execAward l tag c s
  | .withdraw l tag c => Sys2Proof.Machine.execWithdraw l tag c s
  | .discard l tag c => Sys2Proof.Machine.execDiscard l tag c s
  | .release l tag c => Sys2Proof.Machine.execRelease l tag c s
  | .list l tag c => Sys2Proof.Machine.execList l tag c s
  | .entry l tag c => Sys2Proof.Machine.execEntry l tag c s
  | .take l tag c => Sys2Proof.Machine.execTake l tag c s
  | .margin l tag c => Sys2Proof.Machine.execMargin l tag c s
  | .thresholds l tag c => Sys2Proof.Machine.execThresholds l tag c s
  | .lockShort l tag c => Sys2Proof.Machine.execLockShort l tag c s
  | .lineMode l tag c => Sys2Proof.Machine.execLineMode l tag c s
  | .deadband l tag c => Sys2Proof.Machine.execDeadband l tag c s
  | .activate l tag c => Sys2Proof.Machine.execActivate l tag c s
  | .override l tag c => Sys2Proof.Machine.execOverride l tag c s
  | .clear l tag c => Sys2Proof.Machine.execClear l tag c s
  | .dispatch l tag c => Sys2Proof.Machine.execDispatch l tag c s
  | .set l tag c => Sys2Proof.Machine.execSet l tag c s
  | .map l tag c => Sys2Proof.Machine.execMap l tag c s
  | .busy l code tag c => Sys2Proof.Machine.execBusy l code tag c s
  | .unknownRequestCode l code tag c => Sys2Proof.Machine.execUnknownRequestCode l code tag c s
  | .discardedFrame l chars => Sys2Proof.Machine.execDiscardedFrame l chars s
  | .intercharacterTimeout l => Sys2Proof.Machine.execIntercharacterTimeout l s
  | .frameSent l => Sys2Proof.Machine.execFrameSent l s
  | .channelFrameSent ch => Sys2Proof.Machine.execChannelFrameSent ch s
  | .channelAnswer ch chars => Sys2Proof.Machine.execChannelAnswer ch chars s
  | .replyWaitExpiry ch => Sys2Proof.Machine.execReplyWaitExpiry ch s
  | .strayChannelFrame ch chars => Sys2Proof.Machine.execStrayChannelFrame ch chars s
  | .exchangeTimerExpiry => Sys2Proof.Machine.execExchangeTimerExpiry s
  | .frequencySample bs => Sys2Proof.Machine.execFrequencySample bs s
  | .sampleByteTimeout => Sys2Proof.Machine.execSampleByteTimeout s
  | .frequencyWatchExpiry => Sys2Proof.Machine.execFrequencyWatchExpiry s
  | .silenceTimerExpiry => Sys2Proof.Machine.execSilenceTimerExpiry s
  | .replanComplete => Sys2Proof.Machine.execReplanComplete s
  | .tlJobComplete => Sys2Proof.Machine.execTlJobComplete s
  | .releaseOfReset => Sys2Proof.Machine.execReleaseOfReset s

end Sys2Proof.Machine
end

