-- ==== Sys2Proof/Safety.lean ====
section
/-! DEFINITION. What the claims are stated in: when a link can take a request, what a taken request leaves
on its link, and the invariants of a safe run. -/

namespace Sys2Proof.Machine

/-! ### Taking a request -/

/-- A link can take a request: the part is not held in reset and no request is in process there (R167). -/
def CanTake (s : State) (l : Link) : Prop := s.resetHeld = false ∧ (linkOf s l).inProcess = none

/-- The command that carries a request. -/
def commandOf : Request → Link → Byte → List Byte → Instr
  | .quote => .quote | .offer => .offer | .award => .award | .withdraw => .withdraw
  | .discard => .discard | .list => .list | .entry => .entry | .take => .take | .margin => .margin
  | .units => .units | .feeders => .feeders | .settings => .settings | .map => .map | .time => .time
  | .gate => .gate | .feeder => .feeder | .product => .product | .deadband => .deadband
  | .activate => .activate | .override => .override | .clear => .clear | .release => .release
  | .thresholds => .thresholds | .lockShort => .lockShort | .lineMode => .lineMode
  | .dispatch => .dispatch | .start => .start | .stop => .stop | .engage => .engage
  | .disengage => .disengage | .set => .set | .channels => .channels

/-- Every request with its frame code, the length of its contents, and the link classes that may send it (R167,
R178). -/
def requestTable : List (Request × Byte × Nat × List LinkClass) :=
  [(.quote, 0x01#8, 6, [.market]), (.offer, 0x02#8, 13, [.market]), (.award, 0x03#8, 8, [.market]),
   (.withdraw, 0x04#8, 6, [.market]), (.discard, 0x05#8, 6, [.market]), (.list, 0x06#8, 7, [.market, .operator]),
   (.entry, 0x07#8, 4, [.market, .operator]), (.take, 0x08#8, 0, [.market]),
   (.margin, 0x09#8, 0, [.market, .operator]), (.units, 0x0A#8, 3, [.market, .fleet]),
   (.feeders, 0x0B#8, 0, [.market]), (.settings, 0x0C#8, 9, [.market]), (.map, 0x0D#8, 8, [.market]),
   (.time, 0x10#8, 7, [.operator]), (.gate, 0x11#8, 1, [.operator]), (.feeder, 0x12#8, 6, [.operator]),
   (.product, 0x13#8, 3, [.operator]), (.deadband, 0x14#8, 2, [.operator]), (.activate, 0x15#8, 4, [.operator]),
   (.override, 0x16#8, 1, [.operator]), (.clear, 0x17#8, 0, [.operator]), (.release, 0x18#8, 6, [.operator]),
   (.thresholds, 0x19#8, 6, [.operator]), (.lockShort, 0x1A#8, 0, [.operator]), (.lineMode, 0x1B#8, 1, [.operator]),
   (.dispatch, 0x1C#8, 0, [.operator]), (.start, 0x20#8, 1, [.fleet]), (.stop, 0x21#8, 1, [.fleet]),
   (.engage, 0x22#8, 1, [.fleet]), (.disengage, 0x23#8, 1, [.fleet]), (.set, 0x24#8, 5, [.fleet]),
   (.channels, 0x25#8, 0, [.fleet])]

/-- A request has become the request in process on its link (R167 step 6). -/
def processing (q : Request) (l : Link) (tag : Byte) (t : State) : State :=
  setLink l { linkOf t l with inProcess := some { code := requestCode q, tag := tag } } t

/-- A request has become the request in process, and its answer is owed (R167 step 6). -/
def answered (q : Request) (l : Link) (tag : Byte) (code : AnswerCode) (result : List Byte) (t : State) :
    State :=
  oweAnswer l tag code result true (processing q l tag t)

/-- The contents name an entry in use by its number and its trade reference (R58). -/
def Names (s : State) (c : List Byte) (n : Nat) (e : Entry) : Prop :=
  readU c 0 2 = n ∧ n ≤ 1023 ∧ entryOf s n = some e ∧ readU c 2 4 = e.ref

/-- On the links nothing but pending notices differs. -/
def NoticesOnly (s t : State) : Prop :=
  t.links.mapA = s.links.mapA ∧ t.links.mapB = s.links.mapB ∧
    ∀ l, linkOf t l = { linkOf s l with notices := (linkOf t l).notices }

/-- In the Evaluator nothing but the replan-pending set and the mark of the running job differs. -/
def MarksOnly (s t : State) : Prop :=
  t.eval = { s.eval with replans := t.eval.replans, job := t.eval.job } ∧
    t.eval.job.map (fun j => { j with disturbed := false }) =
      s.eval.job.map (fun j => { j with disturbed := false })

/-- The entries of `t`'s replan-pending set are those of `s` and the non-terminal entries that satisfy
`p` (R83). -/
def NewlyMarked (s t : State) (p : Nat → Entry → Prop) : Prop :=
  ∀ n, n ∈ t.eval.replans ↔
    n ∈ s.eval.replans ∨ ∃ e, (n, e) ∈ s.book.entries ∧ nonTerminal e.state = true ∧ p n e

/-! ### What an event does to the running job, to the records and to the notices -/

/-- From `s` to `t` the running job learns of an event on the units that satisfy `p`: it is disturbed when it
plans a new record, an enlargement or a continuation on one of them (R87; log 25). -/
def Disturbs (s t : State) (p : Nat → Bool) : Prop :=
  t.eval.job = s.eval.job.map fun j => { j with
    disturbed := j.disturbed ||
      (j.plan.fresh.map Prod.fst ++ j.plan.enlarged.map Enlargement.unit ++
        j.plan.continuations.map Continuation.unit).any p }

/-- CHANNEL is raised for channel `k`: towards TL, towards FA and FB where the link's map marks a unit of the
channel's span, and not towards GL (R54, R176). -/
def ChannelRaised (s t : State) (k : Nat) : Prop :=
  t.links.tl.notices.channel = true ∧ t.links.gl.notices.channel = s.links.gl.notices.channel ∧
  (t.links.fa.notices.channel = true ↔
    s.links.fa.notices.channel = true ∨ ∃ d < 512, permitted s.links.mapA (512 * k + d) = true) ∧
  (t.links.fb.notices.channel = true ↔
    s.links.fb.notices.channel = true ∨ ∃ d < 512, permitted s.links.mapB (512 * k + d) = true)

/-- A unit after a missing report under a lost limit (R15). -/
def afterMiss (limit : Nat) (u : UnitRec) : UnitRec :=
  if u.state = .probing then
    { u with run := 0, miss := u.miss + 1, state := if u.miss + 1 = limit then .lost else .probing }
  else if u.state = .ready then
    { u with miss := u.miss + 1, state := if u.miss + 1 = limit then .lost else .ready }
  else u

/-- A unit in PROBING, READY or LOST, on a channel that is RUNNING or not, after a good report with these telemetry
bits (R14). It owes no event of its exclusion once it is READY on a RUNNING channel (R162). -/
def afterGood (running : Bool) (bits : Nat) (u : UnitRec) : UnitRec :=
  let v := { u with soc := (reportedSoc u.catalogue bits).getD u.soc
                    measured := (reportedPower u.catalogue bits).getD u.measured
                    miss := 0 }
  if u.state = .probing then
    if u.run = 0 then { v with run := 1 }
    else { v with run := 0, state := .ready, owesEvent := u.owesEvent && !running }
  else if u.state = .lost then { v with state := .probing, run := 1 }
  else v

/-- A channel record on entry into FAULTED (R50). -/
def afterFault (r : ChannelRec) : ChannelRec :=
  { r with state := .faulted, discovery := none, armPending := false, exchangePending := false,
           haltPending := true }

/-- The delivery record of an entry's accumulator, without its flags released and gap-before (R151). -/
def recordOfAccount (n : Nat) (e : Entry) (a : Accumulator) : DeliveryRecord :=
  { entry := n, ref := e.ref, product := e.product, slot := a.slot, awarded := e.awarded.getD 0,
    requestedUp := a.requestedUp / 3600000, requestedDown := a.requestedDown / 3600000,
    deliveredUp := a.deliveredUp / 3600000, deliveredDown := a.deliveredDown / 3600000,
    shortfallRounds := a.shortfallRounds, released := false, override := a.overrideMark, gapBefore := false }

/-- The queue of delivery records with the records of accounts appended in their order. A full queue loses its
oldest record, and the new one carries gap-before (R149, R151; an account without an entry: log 24). -/
def recordsEmitted (s : State) (accounts : List (Nat × Accumulator)) (queue : List DeliveryRecord) :
    List DeliveryRecord :=
  accounts.foldl (fun q p => match entryOf s p.1 with
    | none => q
    | some e =>
      if 256 ≤ q.length then q.drop 1 ++ [{ recordOfAccount p.1 e p.2 with gapBefore := true }]
      else q ++ [recordOfAccount p.1 e p.2]) queue

/-- The transmitter of a link is free, and its TIME_MARK notice, the first frame that waits, still waits for the
time mark that falls together with the expiry of the mark watch (R3; log 30). -/
def AwaitsItsMark (l : Link) (s : State) : Prop :=
  s.pending.head? = some .timeMark ∧
    Config.fallsTogether s.pending.length = true ∧ (linkOf s l).tx = .free ∧ (linkOf s l).telegram = none ∧
    (linkOf s l).answers = [] ∧ (linkOf s l).busy = none ∧ (linkOf s l).notices.timeMark = true ∧
    ∀ k ∈ [NoticeKind.entry, .margin, .channel, .freqLost, .operatorSilent],
      noticeGet (linkOf s l).notices k = false

/-! ### What a round sends (R138, R139, R141) -/

/-- The sum of the positive setpoints. -/
def positivePower (us : List UnitShare) : Int := (us.map fun u => max 0 u.setpoint).sum

/-- The magnitude of the sum of the negative setpoints. -/
def negativePower (us : List UnitShare) : Int := (us.map fun u => max 0 (-u.setpoint)).sum

/-- A unit with its setpoint scaled, rounding toward zero, and its duty list with it, from a group's sum to the
group's limit in W (R138). -/
def scaledUnit (limit sum : Int) (u : UnitShare) : UnitShare :=
  { u with
    setpoint := if 0 < u.setpoint then Int.fdiv (u.setpoint * limit) sum
      else -Int.fdiv (-u.setpoint * limit) sum
    duty := u.duty.map fun p => (p.1, Int.tdiv (p.2 * limit) sum) }

/-- The units of a round after the feeder clamp (R138). -/
def clampedUnits (s : State) (us : List UnitShare) : List UnitShare :=
  us.map fun u =>
    let group := us.filter fun x => x.feeder == u.feeder
    let ex : Int := (feederOf s u.feeder).exportKw * 1000
    let im : Int := (feederOf s u.feeder).importKw * 1000
    if 0 < u.setpoint ∧ ex < positivePower group then scaledUnit ex (positivePower group) u
    else if u.setpoint < 0 ∧ im < negativePower group then scaledUnit im (negativePower group) u
    else u

/-- The round figures hold what the units of a round come to after pass 2: clamped, each setpoint truncated toward
zero to 10 W, a duty list whose pairs are all 0 empty, with the totals of R141. -/
def FormedFrom (s : State) (f : RoundFigures) (us : List UnitShare) : Prop :=
  let clamped := clampedUnits s us
  let sent := clamped.map fun u => { u with
    setpoint := Int.tdiv u.setpoint 10 * 10
    duty := if ∀ p ∈ u.duty, p.2 = 0 then [] else u.duty }
  f.setpoints = ((sent.filter fun u => u.setpoint ≠ 0).map fun u => (u.unit, u.setpoint)) ∧
  f.duties = ((sent.filter fun u => u.duty ≠ []).map fun u => (u.unit, u.duty)) ∧
  f.exportClamp = positivePower us - positivePower clamped ∧
  f.importClamp = negativePower us - negativePower clamped ∧
  f.positiveSum = positivePower sent ∧ f.negativeSum = -negativePower sent

/-! ### Tables in their one form (log 17) -/

/-- The numbers of a table rise strictly. -/
def Ascending {α : Type} (t : List (Nat × α)) : Prop := (t.map Prod.fst).Pairwise (· < ·)

/-- A table lists rising numbers and no record equal to the one an unlisted number holds. -/
def Listed {α : Type} (d : α) (t : List (Nat × α)) : Prop := Ascending t ∧ ∀ p ∈ t, p.2 ≠ d

/-- Every table of the state has its one form, and the replan-pending set rises, so that equal tables and
equal sets are equal lists (the model's choice, log 17). -/
def TablesCanonical (s : State) : Prop :=
  Listed UnitRec.reset s.fleet.units ∧ Listed FeederLimits.reset s.fleet.feeders ∧
    Listed ChannelRec.reset s.ctl.channels ∧ Ascending s.book.entries ∧ Ascending s.track.current ∧
    Ascending s.track.held ∧ s.eval.replans.Pairwise (· < ·)

/-! ### Ranges -/

/-- The Time Base's figures lie in their ranges (01: second 0 to 899, slot 32 bits, G 1 to 8). -/
def TimeInRange (s : State) : Prop :=
  s.time.second ≤ 899 ∧ s.time.slot ≤ 4294967295 ∧ 1 ≤ s.time.gate ∧ s.time.gate ≤ 8

/-- An endurance is a multiple of 60 in 300 to 3600 (R59). -/
def EnduranceInRange (v : Nat) : Prop := 300 ≤ v ∧ v ≤ 3600 ∧ v % 60 = 0

/-- Every setting lies in the range its rule gives it (R17, R43, R59, R90, R121, R153). -/
def SettingsInRange (s : State) : Prop :=
  (2 ≤ s.fleet.lostLimit ∧ s.fleet.lostLimit ≤ 32) ∧
  (100 ≤ s.ctl.period ∧ s.ctl.period ≤ 1000 ∧ s.ctl.period % 50 = 0) ∧
  (10 ≤ s.ctl.replyTimeout ∧ s.ctl.replyTimeout ≤ 250 ∧ s.ctl.replyTimeout + 10 ≤ s.ctl.period) ∧
  (s.eval.holdback ≤ 200 ∧ 10 ≤ s.eval.minShare ∧ s.eval.minShare ≤ 1000 ∧ s.eval.minShare % 10 = 0) ∧
  (∀ p : Product, EnduranceInRange (enduranceOf s.book.endurance p)) ∧
  s.disp.deadband ≤ 50 ∧
  (1000 ≤ s.margin.warn ∧ s.margin.warn ≤ 2000 ∧ 800 ≤ s.margin.short ∧ s.margin.short ≤ 1500 ∧
    s.margin.short ≤ s.margin.warn ∧ s.margin.hysteresis ∈ [0, 10, 25, 50])

/-- An owner's limits leave a band of at least 100 per-mille (R161). -/
def LimitsHold (u : UnitRec) : Prop :=
  u.floor ≤ 900 ∧ u.floor + 100 ≤ u.ceiling ∧ u.ceiling ≤ 1000

/-- Every unit the table lists keeps its owner's limits (a unit it does not list holds 200 and 950), and only an
excluded unit owes the event of its exclusion (R162; log 35). -/
def OwnerLimits (s : State) : Prop :=
  ∀ p ∈ s.fleet.units, LimitsHold p.2 ∧ (p.2.owesEvent = true → p.2.excluded = true)

/-- An entry's awarded quantity, when present, is at most its offered quantity (R63). -/
def AwardsWithinOffers (s : State) : Prop :=
  ∀ p ∈ s.book.entries, ∀ a, p.2.awarded = some a → a ≤ p.2.offered

/-- Two settings in the queue are for the same unit and field (R159). -/
def SameSlotInQueue (a b : QueuedSetting) : Prop := a.unit = b.unit ∧ sameField a.setting b.setting = true

/-- The queues and lists keep their bounds: 256 delivery records (R151), 64 changed entries each named
once (R75), 32 settings no two for one unit and field (R159). -/
def QueuesBounded (s : State) : Prop :=
  s.track.queue.length ≤ 256 ∧
  (s.book.changes.length ≤ 64 ∧ (s.book.changes.map ChangeMember.entry).Nodup) ∧
  (s.queue.length ≤ 32 ∧ s.queue.Pairwise fun a b => ¬SameSlotInQueue a b)

/-- Share records in use have numbers of the pool, no number twice (R104), and stand grouped by rising entry
number (the model's choice, log 18). -/
def SharesNumbered (s : State) : Prop :=
  (s.shares.map ShareRec.num).Nodup ∧ (∀ r ∈ s.shares, r.num < 32768) ∧
    s.shares.Pairwise fun a b => a.entry ≤ b.entry

/-! ### Unit maps -/

/-- A map's limit is at most 4096, and it holds no mark at or above its limit (R171). -/
def MapWithinLimit (m : UnitMap) : Prop :=
  m.limit ≤ 4096 ∧ ∀ i, m.limit ≤ i → m.marks.getLsbD i = false

/-- No unit index is marked in both maps, and each map keeps to its limit (R171). -/
def MapsDisjoint (s : State) : Prop :=
  MapWithinLimit s.links.mapA ∧ MapWithinLimit s.links.mapB ∧
    ∀ i, ¬(s.links.mapA.marks.getLsbD i = true ∧ s.links.mapB.marks.getLsbD i = true)

/-! ### Answers due -/

/-- The answers to requests in process that a link still owes. -/
def owedCount (r : LinkRec) : Nat := (r.answers.filter fun o => o.ends).length

/-- An answer to a request in process is being sent. -/
def sendingCount (r : LinkRec) : Nat :=
  match r.tx with
  | .sending (.answer true) _ => 1
  | _ => 0

/-- TL requests that wait in the TL job slot or run as the job (R81). -/
def tlWork (e : Evaluator) : Nat :=
  (if e.slot.isSome then 1 else 0) +
    (match e.job with
      | none => 0
      | some j => match j.kind with
        | .quote _ => 1
        | .offer _ => 1
        | .replan _ _ => 0)

/-- The answers to requests in process that are due on a link: owed, being sent, or still to be formed by
the Evaluator. -/
def answersDue (s : State) (l : Link) : Nat :=
  owedCount (linkOf s l) + sendingCount (linkOf s l) + (if l = .tl then tlWork s.eval else 0)

/-- One request at a time: on every link exactly one answer is due while a request is in process, and none
otherwise (R81, R165, R167). -/
def OneRequestInProcess (s : State) : Prop :=
  ∀ l, answersDue s l = if (linkOf s l).inProcess.isSome then 1 else 0

/-! ### Rounds and channels -/

/-- A round in flight has a channel outstanding and a roll; between rounds there is neither a roll nor a
held accumulator (R51, R143, R145, R149). -/
def RoundOpen (s : State) : Prop :=
  match s.ctl.round with
  | none => s.track.roll = none ∧ s.track.held = []
  | some r => r.outstanding ≠ [] ∧ s.track.roll.isSome = true

/-- A channel has discovery progress exactly in STARTING, and an outstanding channel is IDLING or RUNNING
(03, The channel record; R44, R50). -/
def ChannelsConsistent (s : State) : Prop :=
  (∀ c, ((channelOf s c).discovery.isSome = true ↔ (channelOf s c).state = .starting)) ∧
  ∀ r, s.ctl.round = some r → ∀ c ∈ r.outstanding,
    (channelOf s c).state = .idling ∨ (channelOf s c).state = .running

/-! ### The Margin Monitor -/

/-- Each ratio lies within 0 to 9999 (R153), the overall state is the worse of the two, and in LEVEL mode
the line is asserted exactly outside SOUND (R156). -/
def MarginConsistent (s : State) : Prop :=
  s.margin.up.ratio ≤ 9999 ∧ s.margin.down.ratio ≤ 9999 ∧
  s.margin.overall = worse s.margin.up.state s.margin.down.state ∧
  (s.margin.mode = .level → s.margin.asserted = decide (s.margin.overall ≠ .sound))

end Sys2Proof.Machine
end

