-- ==== Sys2Proof/Certificates/Slice0/Obligations.lean ====
section
/-! DEFINITION. The statements about this model that the provers are asked for. A statement about a command
gives the state after it as `settle T`: T is the state its rules give, and `settle` starts what waits for a
free line, a free Evaluator or a free transmitter (log 5; what it can change is in Laws/Settle.lean). -/

open Sys2Proof Sys2Proof.Machine

/-! ### The step, reset, and the invariants at reset -/

/-- The block's step is the command at the front of its queue, run with the queue's rest; an empty queue
idles (the model's choice, log 1). -/
def Obligations.StepRunsTheFrontCommand : Prop :=
  (∀ (c : Instr) (rest : List Instr) (s : State), s.pending = c :: rest →
    step s = exec c { s with pending := rest }) ∧
  ∀ s : State, s.pending = [] → step s = .next s

/-- Every invariant of a safe run holds at reset. -/
def Obligations.ResetMeetsEveryInvariant : Prop :=
  TablesCanonical State.reset ∧ TimeInRange State.reset ∧ SettingsInRange State.reset ∧
  OwnerLimits State.reset ∧ AwardsWithinOffers State.reset ∧ QueuesBounded State.reset ∧
  SharesNumbered State.reset ∧ MapsDisjoint State.reset ∧ OneRequestInProcess State.reset ∧
  RoundOpen State.reset ∧ ChannelsConsistent State.reset ∧ MarginConsistent State.reset

/-- RESET puts every piece of state at the value its chapter's table gives and abandons rounds, jobs,
accumulators, queued settings and frames, from any state (R10, and the reset columns of R31, R56, R80, R121,
R143, R153, R159, R165, R171; 01, table of state). Its release starts the mark watch, the exchange timer and
the frequency watch, and changes nothing else (R3, R31, R121). The model's choice: that the line is a state in
which no timer runs and every other command changes nothing (log 2), that the queue of commands and the count
of boundaries outlive RESET (log 28), that a line which is not asserted is not released (log 3), and that no unit owes
the event of an exclusion (log 35). -/
def Obligations.ResetAndItsRelease : Prop :=
  (∀ s : State, ∃ t, exec .reset s = .next t ∧ t.resetHeld = true ∧
    ((∀ i, unitOf t i =
        { state := .empty, site := 0, feeder := 0, pd := 0, pc := 0, energy := 0, eta := 0, soc := 0,
          measured := 0, floor := 200, ceiling := 950, excluded := false, miss := 0, run := 0,
          catalogue := [], owesEvent := false }) ∧
      t.fleet.lostLimit = 8 ∧ ∀ g, feederOf t g = { exportKw := 0, importKw := 0 }) ∧
    (t.time.timeSet = false ∧ t.time.slot = 0 ∧ t.time.second = 0 ∧ t.time.holdover = false ∧
      t.time.gate = 4 ∧ t.time.holdoverTimer = none ∧ t.time.markWatch = none) ∧
    ((∀ k, channelOf t k =
        { state := .stopped
          sticky := { timeout := false, checkError := false, framing := false, extraData := false,
                      watchdogBite := false, tooMany := false }
          failures := 0, roster := [], discovery := none, line := .free, haltPending := false,
          armPending := false, exchangePending := false, fault := false }) ∧
      t.ctl.period = 250 ∧ t.ctl.replyTimeout = 60 ∧ t.ctl.round = none ∧ t.ctl.failedMask = [] ∧
      t.ctl.overrun = false ∧ t.ctl.exchangeTimer = none) ∧
    (t.book.entries = [] ∧ t.book.changes = [] ∧ t.book.more = false ∧
      ∀ p, enduranceOf t.book.endurance p = 900) ∧
    (t.eval.job = none ∧ t.eval.slot = none ∧ t.eval.replans = [] ∧ t.eval.runCount = 0 ∧
      t.eval.start = 0 ∧ t.eval.holdback = 50 ∧ t.eval.minShare = 100 ∧ t.shares = []) ∧
    (t.disp.sample = none ∧ t.disp.frequencyWatch = none ∧ t.disp.freqLost = false ∧ t.disp.deadband = 10 ∧
      t.disp.requestedU = 0 ∧ t.disp.requestedD = 0 ∧ t.disp.silenceTimer = none ∧ t.disp.silent = false ∧
      t.disp.override = .none ∧ t.disp.figures = none ∧ t.disp.receiver = .hunting) ∧
    (t.track.current = [] ∧ t.track.held = [] ∧ t.track.roll = none ∧ t.track.reported = [] ∧
      t.track.queue = [] ∧ t.queue = []) ∧
    ((∀ d, d = t.margin.up ∨ d = t.margin.down →
        d = { obligation := 0, deliverable := 0, ratio := 9999, state := .sound }) ∧
      t.margin.overall = .sound ∧ t.margin.warn = 1200 ∧ t.margin.short = 1000 ∧ t.margin.hysteresis = 25 ∧
      t.margin.lock = false ∧ t.margin.mode = .level ∧ t.margin.asserted = false) ∧
    ((∀ l, linkOf t l =
        { receiver := .hunting, inProcess := none, answers := [], busy := none, telegram := none,
          tx := .free
          notices := { entry := false, margin := false, channel := false, freqLost := false,
                       operatorSilent := false, timeMark := false, records := false, override := false } }) ∧
      t.links.mapA.limit = 0 ∧ t.links.mapB.limit = 0 ∧
      ∀ i, t.links.mapA.marks.getLsbD i = false ∧ t.links.mapB.marks.getLsbD i = false) ∧
    t.pending = s.pending ∧ t.freeTick = s.freeTick) ∧
  (∀ s : State, s.resetHeld = true →
    exec .releaseOfReset s = .next
      { s with
        time := { s.time with markWatch := some 2000 }
        ctl := { s.ctl with exchangeTimer := some s.ctl.period }
        disp := { s.disp with frequencyWatch := some 1000 }
        resetHeld := false }) ∧
  (∀ s : State, s.resetHeld = false → exec .releaseOfReset s = .next s) ∧
  ∀ (i : Instr) (s : State), s.resetHeld = true → i ≠ .reset → i ≠ .releaseOfReset → exec i s = .next s

/-! ### Time -/

/-- A time mark ends holdover without a step, or takes one second step: none while time is unset, one
second more, the wrap at the last slot, or the wrap into a new slot with its boundary; and it restarts the
mark watch (R1, R2). -/
def Obligations.TimeMarkCountsASecond : Prop :=
  ∀ s : State, s.resetHeld = false →
    (s.time.holdover = true →
      exec .timeMark s = .next (settle (raiseTlGl .timeMark { s with time := { s.time with
        holdover := false, holdoverTimer := none, markWatch := some 2000 } }))) ∧
    (s.time.holdover = false → s.time.timeSet = false →
      exec .timeMark s = .next (settle { s with time := { s.time with markWatch := some 2000 } })) ∧
    (s.time.holdover = false → s.time.timeSet = true → s.time.second < 899 →
      exec .timeMark s = .next (settle { s with time := { s.time with
        second := s.time.second + 1, markWatch := some 2000 } })) ∧
    (s.time.holdover = false → s.time.timeSet = true → s.time.second = 899 → s.time.slot = 4294967295 →
      exec .timeMark s = .next (settle { s with time := { s.time with
        second := 0, markWatch := some 2000 } })) ∧
    (s.time.holdover = false → s.time.timeSet = true → s.time.second = 899 → s.time.slot ≠ 4294967295 →
      exec .timeMark s = .next (settle
        (let b := slotBoundary { s with time := { s.time with second := 0, slot := s.time.slot + 1 } }
         { b with time := { b.time with markWatch := some 2000 } })))

/-- The mark watch's expiry enters holdover with two second steps, and each expiry of the holdover second
timer takes one; while neither timer runs its expiry changes nothing (R3, R4; log 3). The step of the mark watch's
expiry alone may leave its TIME_MARK notice waiting for a mark that falls together with it (R3; log 30). -/
def Obligations.HoldoverCountsOnTheOscillator : Prop :=
  ∀ s : State, s.resetHeld = false →
    (s.time.markWatch.isSome = true →
      exec .markWatchExpiry s = .next (settleWith true
        (let u := secondStep (secondStep { s with time := { s.time with holdover := true, markWatch := none } })
         raiseTlGl .timeMark { u with time := { u.time with holdoverTimer := some 1000 } }))) ∧
    (s.time.markWatch.isSome = true → s.time.timeSet = true → s.time.second ≤ 897 →
      exec .markWatchExpiry s = .next (settleWith true (raiseTlGl .timeMark { s with time := { s.time with
        holdover := true, markWatch := none, second := s.time.second + 2,
        holdoverTimer := some 1000 } }))) ∧
    (s.time.markWatch = none → exec .markWatchExpiry s = .next (settle s)) ∧
    (s.time.holdoverTimer.isSome = true → s.time.timeSet = true → s.time.second < 899 →
      exec .holdoverSecondTimerExpiry s = .next (settle { s with time := { s.time with
        second := s.time.second + 1, holdoverTimer := some 1000 } })) ∧
    (s.time.holdoverTimer.isSome = true → exec .holdoverSecondTimerExpiry s = .next (settle
      (let u := secondStep s
       { u with time := { u.time with holdoverTimer := some 1000 } }))) ∧
    (s.time.holdoverTimer = none → exec .holdoverSecondTimerExpiry s = .next (settle s))

/-- TIME queries, sets an unset time, or corrects the second of the current slot (R5). Its DONE answer
carries the time status in the answer's own fields (log 11). -/
def Obligations.TimeIsSetOnce : Prop :=
  ∀ (tag : Byte) (c : List Byte) (s : State), CanTake s .gl → c.length = 7 →
    let h := frameComplete .gl s
    let slot := readU c 1 4
    let v := readU c 5 2
    let timer : Timer := if s.time.holdover then some 1000 else s.time.holdoverTimer
    exec (.time .gl tag c) s = .next (settle
      (if readBit c 0 0 = false then answered .time .gl tag .done [] h
       else if 899 < v then answered .time .gl tag .badRange [] h
       else if s.time.timeSet = false then
         if 4000000000 < slot then answered .time .gl tag .badRange [] h
         else answered .time .gl tag .done [] (raiseTlGl .timeMark { h with time := { s.time with
           timeSet := true, slot := slot, second := v, holdoverTimer := timer } })
       else if slot ≠ s.time.slot then answered .time .gl tag .wrongState [] h
       else answered .time .gl tag .done [] { h with time := { s.time with
         second := v, holdoverTimer := timer } }))

/-- G is 4 after reset; GATE queries G, or sets it while no entry has yet to pass its gate and no OFFER
waits or runs (R8). -/
def Obligations.GateSetsTheOffset : Prop :=
  State.reset.time.gate = 4 ∧
  ∀ (tag : Byte) (c : List Byte) (s : State), CanTake s .gl → c.length = 1 →
    let h := frameComplete .gl s
    let v := readU c 0 1
    (v = 0 → exec (.gate .gl tag c) s = .next (settle
      (answered .gate .gl tag .done (putU 1 s.time.gate) h))) ∧
    (8 < v → exec (.gate .gl tag c) s = .next (settle (answered .gate .gl tag .badRange [] h))) ∧
    (1 ≤ v → v ≤ 8 →
      ((∃ p ∈ s.book.entries, p.2.state = .offered ∨ p.2.state = .awarded) ∨
        (∃ o, s.eval.slot = some (.offer o)) ∨ (∃ j o, s.eval.job = some j ∧ j.kind = .offer o)) →
      exec (.gate .gl tag c) s = .next (settle (answered .gate .gl tag .wrongState [] h))) ∧
    (1 ≤ v → v ≤ 8 →
      ¬((∃ p ∈ s.book.entries, p.2.state = .offered ∨ p.2.state = .awarded) ∨
        (∃ o, s.eval.slot = some (.offer o)) ∨ (∃ j o, s.eval.job = some j ∧ j.kind = .offer o)) →
      exec (.gate .gl tag c) s = .next (settle (answered .gate .gl tag .done (putU 1 v)
        { h with time := { s.time with gate := v } })))

/-! ### The slot boundary -/

/-- At the boundary into the current slot t every entry takes the transition of its state and slots, and
the records left are those that do not end at t − 1 and belong to no lapsed entry (R71 to R73, R117,
R118). -/
def Obligations.BoundaryMovesEntries : Prop :=
  ∀ s : State, TablesCanonical s →
    let t := s.time.slot
    let b := slotBoundary s
    (∀ n e, entryOf s n = some e → entryOf b n = some
      (if e.first = t + s.time.gate ∧ e.state = .offered then { e with state := .lapsed, uncovered := 0 }
       else if e.first = t + s.time.gate ∧ e.state = .awarded then { e with state := .locked }
       else if e.first = t ∧ e.state = .locked then { e with state := .active }
       else if lastSlot e + 1 = t ∧ e.state = .active then { e with state := .ended, uncovered := 0 }
       else e)) ∧
    (∀ n, entryOf s n = none → entryOf b n = none) ∧
    (∀ r, r ∈ b.shares ↔ r ∈ s.shares ∧ r.last + 1 ≠ t ∧
      ¬∃ e, entryOf s r.entry = some e ∧ e.state = .offered ∧ e.first = t + s.time.gate)

/-- The boundary into slot t beside the entries' transitions. The Update Queue is emptied: a setting whose unit
is in its origin's map is applied, in queue order, and one whose unit has left it changes nothing; a unit whose
limits or exclusion change marks the entries with a record on it, and one that starts to contribute marks those
with uncovered W (R164, R162; where the drain falls among the transitions and the freeing of records is free,
log 6). The running job learns of the boundary (R88) and of the settings applied (R87). Every entry that changes state
is placed on the change list with cause STATE, in ascending number, and
ENTRY is raised (R74 to R76). The accumulators of slot t − 1 become delivery records at once, in ascending
entry number, unless the round in flight began in that slot, and an empty queue raises RECORDS (R149, R151; a
round of an older slot: log 13; an account without an entry: log 24). Tables as in log 17. -/
def Obligations.BoundaryDrainsTheQueue : Prop :=
  (∀ s : State, TablesCanonical s →
    let t := s.time.slot
    let b := slotBoundary s
    let closed := s.track.current.filter fun p => p.2.slot + 1 = t
    let waits := s.ctl.round.isSome = true ∧ (s.track.roll.map fun r => r.slot + 1) = some t
    let changing := s.book.entries.filter fun p =>
      (p.2.first = t + s.time.gate ∧ (p.2.state = .offered ∨ p.2.state = .awarded)) ∨
        (p.2.first = t ∧ p.2.state = .locked) ∨ (lastSlot p.2 + 1 = t ∧ p.2.state = .active)
    b.queue = [] ∧
    (∀ i, unitOf b i = s.queue.foldl (fun u q =>
      if q.unit = i ∧ inOriginMap s q.origin i = true then settingApplied (onRunningChannel s i) q.setting u
      else u) (unitOf s i)) ∧
    Disturbs { s with eval := { s.eval with job := s.eval.job.map fun j => { j with boundaryTaken := true } } } b
      (fun i => s.queue.any fun q => q.unit == i && inOriginMap s q.origin i) ∧
    (∃ u : State, NoticesOnly s u ∧
      { u with eval := { u.eval with job := s.eval.job }, track := s.track, links := s.links } = s ∧
      ∃ v ∈ [u, freeEnded t u, bookBoundary t u, freeEnded t (bookBoundary t u)],
        b.eval.replans = (drainQueue v).eval.replans) ∧
    { b.book with entries := s.book.entries } = changing.foldl (fun k p => placeMember p.1 true k) s.book ∧
    (b.links.tl.notices.entry = true ↔ changing ≠ [] ∨ s.links.tl.notices.entry = true) ∧
    b.track.queue = (if waits then s.track.queue else recordsEmitted s closed s.track.queue) ∧
    (b.links.tl.notices.records = true ↔
      s.links.tl.notices.records = true ∨ (s.track.queue = [] ∧ b.track.queue ≠ []))) ∧
  (∀ (s : State) (q : QueuedSetting), TablesCanonical s →
    let t := drainOne s q
    let u := unitOf s q.unit
    let v := settingApplied (onRunningChannel s q.unit) q.setting u
    drainQueue s = { s.queue.foldl drainOne s with queue := [] } ∧
    (inOriginMap s q.origin q.unit = false → t = s) ∧
    (inOriginMap s q.origin q.unit = true →
      { t with fleet := s.fleet, eval := s.eval } = s ∧ { t.fleet with units := s.fleet.units } = s.fleet ∧
      MarksOnly s t ∧ Disturbs s t (fun i => i == q.unit) ∧
      (∀ i, unitOf t i = if i = q.unit then v else unitOf s i) ∧
      NewlyMarked s t (fun n e =>
        ((v.floor ≠ u.floor ∨ v.ceiling ≠ u.ceiling ∨ v.excluded ≠ u.excluded) ∧
          ∃ r ∈ s.shares, r.entry = n ∧ r.unit = q.unit) ∨
        (contributing s q.unit = false ∧ contributing t q.unit = true ∧ e.uncovered ≠ 0)))) ∧
  ∀ (n : Nat) (cause : Bool) (b : Book),
    (∀ before m after, b.changes = before ++ m :: after → m.entry = n →
      (∀ k ∈ before ++ after, k.entry ≠ n) →
      placeMember n cause b = { b with changes := before ++ { m with
        causeState := m.causeState || cause, causeCover := m.causeCover || !cause } :: after }) ∧
    ((∀ m ∈ b.changes, m.entry ≠ n) → b.changes.length < 64 →
      placeMember n cause b = { b with
        changes := b.changes ++ [{ entry := n, causeState := cause, causeCover := !cause }] }) ∧
    ((∀ m ∈ b.changes, m.entry ≠ n) → 64 ≤ b.changes.length → placeMember n cause b = { b with more := true })

/-! ### The Unit Table -/

/-- FEEDER queries or replaces a group's two limits; a lowering marks the non-terminal entries with a
record on a unit of the group that ends after the current slot (R23, R24). -/
def Obligations.FeederReplacesTheLimits : Prop :=
  ∀ (tag : Byte) (c : List Byte) (s : State), CanTake s .gl → c.length = 6 →
    let h := frameComplete .gl s
    let g := readU c 1 1
    let ex := readU c 2 2
    let im := readU c 4 2
    (63 < g → exec (.feeder .gl tag c) s = .next (settle (answered .feeder .gl tag .badRange [] h))) ∧
    (g ≤ 63 → readBit c 0 0 = false → exec (.feeder .gl tag c) s = .next (settle
      (answered .feeder .gl tag .done
        (putU 2 (feederOf s g).exportKw ++ putU 2 (feederOf s g).importKw) h))) ∧
    (g ≤ 63 → readBit c 0 0 = true →
      ∃ T, exec (.feeder .gl tag c) s = .next (settle
          (answered .feeder .gl tag .done (putU 2 ex ++ putU 2 im) T)) ∧
        { T with fleet := h.fleet, eval := h.eval } = h ∧ T.fleet.units = s.fleet.units ∧
        T.fleet.lostLimit = s.fleet.lostLimit ∧ MarksOnly h T ∧
        (TablesCanonical s → ∀ k, feederOf T k = if k = g then { exportKw := ex, importKw := im } else feederOf s k) ∧
        NewlyMarked s T (fun n _ =>
          (ex < (feederOf s g).exportKw ∨ im < (feederOf s g).importKw) ∧
            ∃ r ∈ s.shares, r.entry = n ∧ (unitOf s r.unit).feeder = g ∧ s.time.slot < r.last))

/-- The reads FEEDERS, UNITS, LIST, ENTRY and DISPATCH answer DONE with what their rules list and change
nothing; CHANNELS changes nothing but the overrun flag, which it clears (R25, R30, R55, R78, R79, R142). The
read-out forms' fields, their widths and their codes (11, Field widths and Read-out forms): a field goes least
significant byte first, an EMPTY unit reads 0 but for its index and the records held, an absent value is 0, and a
LIST shows 16 entries, a page of ENTRY 32 records, a DISPATCH 512 orphaned entries. -/
def Obligations.ReadsChangeNothing : Prop :=
  (∀ (l : Link) (tag : Byte) (c : List Byte) (s : State), CanTake s l →
    let h := frameComplete l s
    (l = .tl → c.length = 0 → exec (.feeders l tag c) s = .next (settle
      (answered .feeders l tag .done (feedersForm s) h))) ∧
    (l = .tl ∨ (∃ m, mapOf s l = some m ∧ ∀ k < readU c 2 1, permitted m (readU c 0 2 + k) = true) →
      c.length = 3 → 1 ≤ readU c 2 1 → readU c 2 1 ≤ 64 → readU c 0 2 + readU c 2 1 ≤ 4096 →
      exec (.units l tag c) s = .next (settle
        (answered .units l tag .done (unitsForm s (readU c 0 2) (readU c 2 1)) h))) ∧
    (l = .tl ∨ l = .gl → c.length = 7 → readBit c 0 0 = true ∨ readU c 5 2 ≤ 1023 →
      exec (.list l tag c) s = .next (settle (answered .list l tag .done
        (listForm s (bookReading s (readBit c 0 0) (readBit c 0 1) (readU c 1 4) (readU c 5 2))) h))) ∧
    (∀ e, l = .tl ∨ l = .gl → c.length = 4 → readU c 0 2 ≤ 1023 → entryOf s (readU c 0 2) = some e →
      readU c 2 2 ≤ 1023 → exec (.entry l tag c) s = .next (settle (answered .entry l tag .done
        (entryForm s (readU c 0 2) (readU c 2 2) e) h))) ∧
    (l = .gl → c.length = 0 → exec (.dispatch l tag c) s = .next (settle
      (answered .dispatch l tag .done (dispatchForm s) h))) ∧
    (l = .fa ∨ l = .fb → c.length = 0 → exec (.channels l tag c) s = .next (settle
      (answered .channels l tag .done (channelsForm s) { h with ctl := { s.ctl with overrun := false } })))) ∧
  (∀ n v : Nat, (putU n v).length = n ∧ (v < 256 ^ n → readU (putU n v) 0 n = v)) ∧
  (∀ (n : Nat) (v : Int), (putS n v).length = n ∧
    (1 ≤ n → -2 ^ (8 * n - 1) ≤ v → v < 2 ^ (8 * n - 1) → readS (putS n v) 0 n = v)) ∧
  ∀ s : State,
    let fields := fun fs : List (Nat × Nat) => fs.flatMap fun p => putU p.1 p.2
    let bit := fun b : Bool => if b then 1 else 0
    let product := fun (p : Product) => match p with
      | .fsr => 1
      | .rsu => 2
      | .rsd => 3
    let summary := fun (n : Nat) (e : Entry) =>
      fields [(2, n), (4, e.ref), (1, product e.product), (4, e.first), (1, e.count), (2, e.offered),
        (2, e.awarded.getD 0), (1, match e.state with
          | .offered => 1
          | .awarded => 2
          | .locked => 3
          | .active => 4
          | .ended => 5
          | .withdrawn => 6
          | .lapsed => 7
          | .released => 8)] ++ putS 4 e.uncovered ++ fields [(1, bit (s.eval.replans.contains n))]
    let record := fun (r : ShareRec) =>
      fields [(2, r.num), (2, r.unit), (1, match r.cls with
        | .up => 1
        | .down => 2
        | .symmetric => 3), (2, r.power), (4, r.first), (4, r.last)]
    let status := fun i =>
      let u := unitOf s i
      let held := (s.shares.filter fun r => r.unit == i).length
      if u.state = .empty then putU 2 i ++ List.replicate 30 0#8 ++ putU 1 held
      else
        fields [(2, i), (1, match u.state with
            | .empty => 0
            | .probing => 1
            | .ready => 2
            | .rejected _ => 3
            | .lost => 4), (1, match u.state with
            | .rejected .missingRecord => 1
            | .rejected .badKind => 2
            | .rejected .badWidth => 3
            | .rejected .badScale => 4
            | .rejected .payloadTooLong => 5
            | .rejected .badFeeder => 6
            | _ => 0), (4, u.site.toNat), (1, u.feeder), (2, u.pd), (2, u.pc), (2, u.energy), (2, u.eta),
          (2, u.soc)] ++ putS 4 u.measured ++
        fields [(2, u.floor), (2, u.ceiling), (1, bit u.excluded + 2 * bit (contributing s i)), (1, u.miss),
          (1, u.run), (2, if u.state = .lost then 0 else if 2 < u.miss then 500 else 1000), (1, held)]
    let channel := fun k =>
      let r := channelOf s k
      fields [(1, match r.state with
          | .stopped => 0
          | .starting => 1
          | .idling => 2
          | .running => 3
          | .faulted => 4),
        (1, bit r.sticky.timeout + 2 * bit r.sticky.checkError + 4 * bit r.sticky.framing +
          8 * bit r.sticky.extraData + 16 * bit r.sticky.watchdogBite + 32 * bit r.sticky.tooMany),
        (1, r.failures), (2, r.roster.length), (1, bit r.fault), (1, match r.discovery.map Discovery.step with
          | none => 0
          | some .arm => 1
          | some .roster => 2
          | some .catalogue => 3),
        (1, (r.discovery.map Discovery.attempt).getD 0), (2, (r.discovery.map Discovery.position).getD 0)]
    (feedersForm s = (List.range 64).flatMap fun g =>
      fields [(2, (feederOf s g).exportKw), (2, (feederOf s g).importKw)]) ∧
    (∀ first count, unitsForm s first count =
        putU 1 count ++ (List.range count).flatMap fun k => status (first + k)) ∧
    (∀ first count, (unitsForm s first count).length = 1 + 33 * count) ∧
    (∀ reading : List (Nat × Entry), listForm s reading =
      fields [(1, min 16 reading.length), (1, bit (decide (16 < reading.length)))] ++
        (reading.take 16).flatMap fun p => summary p.1 p.2) ∧
    (∀ n page e,
      let rs := s.shares.filter fun r => r.entry == n
      let shown := (rs.drop (32 * page)).take 32
      entryForm s n page e = summary n e ++
        fields [(2, rs.length), (4, (rs.map ShareRec.power).sum), (1, shown.length)] ++ shown.flatMap record ∧
      (entryForm s n page e).length = 29 + 15 * shown.length) ∧
    (channelsForm s = fields [(2, s.ctl.period), (2, s.ctl.replyTimeout), (1, bit s.ctl.overrun),
        (1, ((List.range 8).map fun k => if k ∈ s.ctl.failedMask then 2 ^ k else 0).sum)] ++
      (List.range 8).flatMap channel) ∧
    (channelsForm s).length = 86 ∧
    dispatchForm s =
      let awarded := fun (p : Product) =>
        ((s.book.entries.filter fun q => q.2.state == .active && q.2.product == p).map fun q =>
          q.2.awarded.getD 0).sum
      putU 1 (bit s.disp.sample.isSome) ++ putS 2 (s.disp.sample.getD 0) ++
      fields [(1, bit s.disp.freqLost), (1, s.disp.deadband), (2, s.disp.requestedU), (2, s.disp.requestedD),
        (1, bit s.disp.silent + 2 * bit s.disp.silenceTimer.isSome), (1, match s.disp.override with
          | .none => 0
          | .halt => 1
          | .fullUp => 2), (2, awarded .rsu), (2, awarded .rsd)] ++
      match s.disp.figures with
      | none => putU 1 0
      | some f =>
        fields [(1, 1), (1, match f.method with
          | .zeroUnset => 0
          | .zeroHalt => 0
          | .fullUp => 1
          | .normal => 2)] ++ putS 2 f.aF ++ putS 2 f.aU ++ putS 2 f.aD ++
        fields [(1, bit f.excessU + 2 * bit f.excessD), (2, f.awardedU), (2, f.awardedD)] ++
        putS 4 f.orphan ++ putS 4 f.shortfall ++ putS 4 f.exportClamp ++ putS 4 f.importClamp ++
        putU 2 f.liveUnits ++ putS 4 f.positiveSum ++ putS 4 f.negativeSum ++
        fields [(2, min 512 f.orphans.length), (1, bit (decide (512 < f.orphans.length)))] ++
        (f.orphans.take 512).flatMap fun p => putU 2 p.1 ++ putS 4 p.2

/-- LIST reads the book in ascending first slot and entry number: the reading is in that order, and it
holds exactly the entries after the key, without terminal ones when asked (R78). -/
def Obligations.ListReadsInOrder : Prop :=
  ∀ (s : State) (fromStart liveOnly : Bool) (slot n : Nat), TablesCanonical s →
    let reading := bookReading s fromStart liveOnly slot n
    reading.Pairwise (fun a b => a.2.first < b.2.first ∨ (a.2.first = b.2.first ∧ a.1 < b.1)) ∧
    ∀ p, p ∈ reading ↔ p ∈ s.book.entries ∧
      (fromStart = true ∨ slot < p.2.first ∨ (p.2.first = slot ∧ n < p.1)) ∧
      (liveOnly = true → nonTerminal p.2.state = true)

/-- SETTINGS: the range checks, the check of the exchange period, and what an accepted request stores; the
answer, formed once the arbiter has decided on what the request marked, holds the holdback, minimum share, exchange
period, reply timeout, lost limit, start index, the number of flagged entries and the job in flight (R17, R43, R90;
log 12). -/
def Obligations.SettingsAreStored : Prop :=
  (∀ s : State, settingsForm s =
    [(1, s.eval.holdback), (2, s.eval.minShare), (2, s.ctl.period), (2, s.ctl.replyTimeout), (1, s.fleet.lostLimit),
      (2, s.eval.start), (2, s.eval.replans.length), (1, match s.eval.job.map Job.kind with
        | none => 0
        | some (.quote _) => 1
        | some (.offer _) => 2
        | some (.replan _ _) => 3)].flatMap fun p => putU p.1 p.2) ∧
  ∀ (tag : Byte) (c : List Byte) (s : State), CanTake s .tl → c.length = 9 →
    let h := frameComplete .tl s
    let change := readBit c 0 0
    let hb := readU c 1 1
    let q := readU c 2 2
    let p := readU c 4 2
    let w := readU c 6 2
    let lost := readU c 8 1
    let bad := (change = true ∧ 200 < hb) ∨ ¬(q = 0 ∨ (10 ≤ q ∧ q ≤ 1000 ∧ q % 10 = 0)) ∨
      ¬(p = 0 ∨ (100 ≤ p ∧ p ≤ 1000 ∧ p % 50 = 0)) ∨ ¬(w = 0 ∨ (10 ≤ w ∧ w ≤ 250)) ∨ lost = 1 ∨ 32 < lost
    let held := p ≠ 0 ∧ p ≠ s.ctl.period ∧ ∃ k < 8, (channelOf s k).state ≠ .stopped
    let p' := if p = 0 then s.ctl.period else p
    let U : State := { h with
      eval := { s.eval with
        holdback := if change then hb else s.eval.holdback
        minShare := if q = 0 then s.eval.minShare else q }
      ctl := { s.ctl with
        period := p'
        replyTimeout := min (if w = 0 then s.ctl.replyTimeout else w) (p' - 10)
        exchangeTimer := if p' = s.ctl.period then s.ctl.exchangeTimer else some p' } }
    let T := arbitrate (if lost = 0 then U else applyLostLimit lost U)
    (bad → exec (.settings .tl tag c) s = .next (settle (answered .settings .tl tag .badRange [] h))) ∧
    (¬bad → held →
      exec (.settings .tl tag c) s = .next (settle (answered .settings .tl tag .wrongState [] h))) ∧
    (¬bad → ¬held →
      exec (.settings .tl tag c) s = .next (settle (answered .settings .tl tag .done (settingsForm T) T)))

/-- A new lost limit acts on every unit at once, and marks the non-terminal entries with a record on a
contributing unit that it takes to LOST (R17, R20). -/
def Obligations.LostLimitTakesUnits : Prop :=
  ∀ (limit : Nat) (s : State), TablesCanonical s →
    let t := applyLostLimit limit s
    (∀ i, unitOf t i =
      (let u := unitOf s i
       if (u.state = .probing ∨ u.state = .ready) ∧ limit ≤ u.miss then
         { u with state := .lost, miss := limit }
       else if u.state = .lost ∧ limit < u.miss then { u with miss := limit }
       else u)) ∧
    t.fleet.lostLimit = limit ∧ t.shares = s.shares ∧ t.book = s.book ∧
    NewlyMarked s t (fun n _ => ∃ r ∈ s.shares, r.entry = n ∧ contributing s r.unit = true ∧
      limit ≤ (unitOf s r.unit).miss)

/-! ### Fleet channels -/

/-- START judges its whole mask, and each named channel becomes STARTING at ARM, attempt 1 (R34). -/
def Obligations.StartBeginsDiscovery : Prop :=
  ∀ (l : Link) (tag : Byte) (c : List Byte) (s : State) (m : UnitMap), CanTake s l → mapOf s l = some m →
    c.length = 1 → named c ≠ [] → (∀ k ∈ named c, mapCovers m k = true) →
    let h := frameComplete l s
    ((∃ k ∈ named c, (channelOf s k).state ≠ .stopped) →
      exec (.start l tag c) s = .next (settle (answered .start l tag .wrongState [] h))) ∧
    ((∀ k ∈ named c, (channelOf s k).state = .stopped) →
      (∃ r ∈ s.shares, channelOfUnit r.unit ∈ named c) →
      exec (.start l tag c) s = .next (settle (answered .start l tag .recordsHeld [] h))) ∧
    ((∀ k ∈ named c, (channelOf s k).state = .stopped) →
      (∀ r ∈ s.shares, channelOfUnit r.unit ∉ named c) →
      ∃ T, exec (.start l tag c) s = .next (settle (answered .start l tag .done [] T)) ∧
        { T with ctl := h.ctl, links := h.links } = h ∧ NoticesOnly h T ∧
        T.links.tl.notices.channel = true ∧ { T.ctl with channels := s.ctl.channels } = s.ctl ∧
        ∀ k, channelOf T k = if k ∈ named c then
            { channelOf s k with
              state := .starting
              discovery := some { step := .arm, attempt := 1, position := 0, page := 0, records := [] } }
          else channelOf s k)

/-- STOP is taken in every channel state. A STOPPED channel is left as it is; any other is abandoned,
emptied and told to HALT, leaves the round, which completes with it when it was the last outstanding one, its
units become EMPTY with Pd and Pc kept, its records stay, the entries that hold them are marked, and CHANNEL is
raised towards TL and each of FA and FB whose map touches the span (R16, R40, R51, R54, R119, R176). The model's
choice: the order of the named channels, those the round in flight does not wait for first (log 33), a frame whose
sending has begun runs on and its outcome goes to nobody (log 16), a channel that had failed leaves the failed set too (log 31), and the order within the
channel's effects (log 7). An emptied unit owes no event of an exclusion (log 35). -/
def Obligations.StopEmptiesTheChannel : Prop :=
  (∀ (l : Link) (tag : Byte) (c : List Byte) (s : State) (m : UnitMap), CanTake s l → mapOf s l = some m →
    c.length = 1 → named c ≠ [] → (∀ k ∈ named c, mapCovers m k = true) →
    exec (.stop l tag c) s = .next (settle
      (answered .stop l tag .done [] ((stopOrder s (named c)).foldl stopChannel (frameComplete l s))))) ∧
  (∀ (s : State) (cs : List Nat),
    let waits := fun k => ∃ r, s.ctl.round = some r ∧ k ∈ r.outstanding
    (stopOrder s cs).Perm cs ∧ (cs.Pairwise (· < ·) →
      (stopOrder s cs).Pairwise fun a b => (waits a → waits b) ∧ ((waits a ↔ waits b) → a < b))) ∧
  (∀ (s : State) (cs : List Nat) (r : Round), TablesCanonical s → s.ctl.round = some r → r.outstanding ≠ [] →
    (∀ k ∈ r.participating ++ r.outstanding ++ r.failed, k ∈ cs ∧ (channelOf s k).state ≠ .stopped) →
    let t := (stopOrder s cs).foldl stopChannel s
    t.ctl.round = none ∧ t.ctl.failedMask = []) ∧
  (∀ (s : State) (k : Nat), (channelOf s k).state = .stopped → stopChannel s k = s) ∧
  ∀ (s : State) (k : Nat), TablesCanonical s → (channelOf s k).state ≠ .stopped →
    let t := stopChannel s k
    channelOf t k =
      { state := .stopped, sticky := FaultSet.none, failures := 0, roster := [], discovery := none,
        line := (match (channelOf s k).line with
          | .free => .free
          | .sending f _ w => .sending f .nobody w
          | .awaiting f _ w => .awaiting f .nobody w),
        haltPending := true, armPending := false, exchangePending := false, fault := false } ∧
    (∀ j, j ≠ k → channelOf t j = channelOf s j) ∧
    (∀ i, channelOfUnit i = k →
      unitOf t i = { UnitRec.reset with pd := (unitOf s i).pd, pc := (unitOf s i).pc }) ∧
    (∀ i, channelOfUnit i ≠ k → unitOf t i = unitOf s i) ∧
    t.shares = s.shares ∧ t.book.entries = s.book.entries ∧
    (∀ r, t.ctl.round = some r → k ∉ r.participating ∧ k ∉ r.outstanding ∧ k ∉ r.failed) ∧
    (∀ r, s.ctl.round = some r → (∀ j ∈ r.outstanding, j = k) →
      t.ctl.round = none ∧ t.ctl.failedMask = r.failed.filter fun j => j ≠ k) ∧
    ChannelRaised s t k ∧
    NewlyMarked s t (fun n _ => ∃ r ∈ s.shares, r.entry = n ∧ channelOfUnit r.unit = k)

/-- ENGAGE makes the named IDLING channels RUNNING and marks the non-terminal entries with uncovered W; a READY unit
of a named channel that was excluded while not contributing raises the event of that exclusion, once (R162; log 35);
DISENGAGE makes the named RUNNING channels IDLING and marks the non-terminal entries with a record on
their units; either is refused whole when a named channel is in another state (R41, R42). -/
def Obligations.EngageAndDisengageChannels : Prop :=
  ∀ (l : Link) (tag : Byte) (c : List Byte) (s : State) (m : UnitMap), CanTake s l → mapOf s l = some m →
    c.length = 1 → named c ≠ [] → (∀ k ∈ named c, mapCovers m k = true) →
    let h := frameComplete l s
    ((∃ k ∈ named c, (channelOf s k).state ≠ .idling) →
      exec (.engage l tag c) s = .next (settle (answered .engage l tag .wrongState [] h))) ∧
    ((∀ k ∈ named c, (channelOf s k).state = .idling) →
      ∃ T, exec (.engage l tag c) s = .next (settle (answered .engage l tag .done [] T)) ∧
        { T with ctl := h.ctl, links := h.links, eval := h.eval, fleet := h.fleet } = h ∧
        { T.fleet with units := s.fleet.units } = s.fleet ∧ NoticesOnly h T ∧ MarksOnly h T ∧
        T.links.tl.notices.channel = true ∧ { T.ctl with channels := s.ctl.channels } = s.ctl ∧
        (∀ k, channelOf T k = if k ∈ named c then { channelOf s k with state := .running } else channelOf s k) ∧
        (TablesCanonical s →
          let owed := fun i => (named c).contains (channelOfUnit i) && decide ((unitOf s i).state = .ready) &&
            (unitOf s i).owesEvent
          (∀ i, unitOf T i = if owed i then { unitOf s i with owesEvent := false } else unitOf s i) ∧
          Disturbs h T owed ∧
          NewlyMarked s T (fun n e => e.uncovered ≠ 0 ∨ ∃ r ∈ s.shares, r.entry = n ∧ owed r.unit = true))) ∧
    ((∃ k ∈ named c, (channelOf s k).state ≠ .running) →
      exec (.disengage l tag c) s = .next (settle (answered .disengage l tag .wrongState [] h))) ∧
    ((∀ k ∈ named c, (channelOf s k).state = .running) →
      ∃ T, exec (.disengage l tag c) s = .next (settle (answered .disengage l tag .done [] T)) ∧
        { T with ctl := h.ctl, links := h.links, eval := h.eval } = h ∧ NoticesOnly h T ∧ MarksOnly h T ∧
        T.links.tl.notices.channel = true ∧ { T.ctl with channels := s.ctl.channels } = s.ctl ∧
        (∀ k, channelOf T k = if k ∈ named c then { channelOf s k with state := .idling } else channelOf s k) ∧
        NewlyMarked s T (fun n _ => ∃ r ∈ s.shares, r.entry = n ∧ channelOfUnit r.unit ∈ named c))

/-- The end of a channel frame's sending leaves the line FREE after HALT and AWAITING for the reply timeout
in force after any other frame; a stray frame is discarded; an answer and the wait's expiry end the wait
and hand the outcome to the frame's sender: discovery, the exchange round, the re-arming ARM (R31 to R33, R46, R48,
R53). An answer is judged by the tests of R33 in their order, by the characters up to the first that is not correctly
framed, and its contents by what its kind requires, a CATALOGUE's descriptors and an EXCHANGE's sections one by one
(R180). The model's choice: an answer on a line that awaits none
changes nothing (log 3), the line has a state in which it carries a frame, and the outcome of a frame whose sender
was abandoned goes to nobody (log 16), a stray frame is discarded on an awaiting line too (log 34), within the
contents the FRAMING tests come before EXTRA_DATA (log 15), a character before the start byte is FRAMING and those
after the declared end are ignored (log 32). -/
def Obligations.ChannelLineWaitsForItsAnswer : Prop :=
  (∀ (k : Fin 8) (s : State), s.resetHeld = false →
    let r := channelOf s k
    (∀ o w, r.line = .sending .halt o w →
      exec (.channelFrameSent k) s = .next (settle (setChannel k { r with line := .free } s))) ∧
    (∀ f o w, r.line = .sending f o w → f ≠ .halt →
      exec (.channelFrameSent k) s = .next (settle
        (setChannel k { r with line := .awaiting f o s.ctl.replyTimeout } s))) ∧
    (∀ chars, exec (.strayChannelFrame k chars) s = .next (settle s)) ∧
    (∀ chars, r.line = .free → exec (.channelAnswer k chars) s = .next (settle s)) ∧
    (∀ chars f o w, r.line = .awaiting f o w →
      exec (.channelAnswer k chars) s = .next (settle (handOutcome k o (judgeAnswer r f chars).1
        (judgeAnswer r f chars).2 (setChannel k { r with line := .free } s)))) ∧
    (∀ f o w, r.line = .awaiting f o w →
      exec (.replyWaitExpiry k) s = .next (settle
        (handOutcome k o .timeout [] (setChannel k { r with line := .free } s)))) ∧
    ∀ outcome contents (u : State),
      handOutcome k .discovery outcome contents u = discoveryOutcome k outcome contents u ∧
      (outcome = .good → handOutcome k .round outcome contents u = goodExchange k contents u) ∧
      (outcome ≠ .good → handOutcome k .round outcome contents u = failedExchange k outcome u) ∧
      handOutcome k .rearm outcome contents u = rearmOutcome k outcome u ∧
      handOutcome k .nobody outcome contents u = u) ∧
  (∀ (r : ChannelRec) (frame : ChannelFrame) (bs : List Byte) (rest : List RxChar),
    rest = [] ∨ rest.head? = some .bad →
    let answer := judgeAnswer r frame (bs.map RxChar.ok ++ rest)
    let len := readU bs 1 2
    let contents := (bs.drop 4).take (len - 1)
    let framed := bs.head? = some 0x3C#8 ∧ 3 ≤ bs.length ∧ len + 5 ≤ bs.length
    let checked := readU bs (len + 3) 2 = (crc16 ((bs.drop 1).take (len + 2))).toNat
    let kind := 1 ≤ len ∧ bs.getD 3 0 = answerKind frame
    (¬framed → answer.1 = .framing) ∧ (framed → ¬checked → answer.1 = .checkError) ∧
    (framed → checked → ¬kind → answer.1 = .framing) ∧
    (framed → checked → kind → answer = (contentsOutcome r frame contents, contents))) ∧
  (∀ drop page : Nat, answerKind .arm = 0x81#8 ∧ answerKind .roster = 0x82#8 ∧
    answerKind (.catalogue drop page) = 0x83#8 ∧ answerKind .exchange = 0x84#8) ∧
  (∀ (r : ChannelRec) (c : List Byte) (drop page : Nat),
    let n := readU c 0 2
    let drops := (List.range n).map fun k => readU c (2 + 2 * k) 2
    let rosterBad := c.length < 2 ∨ c.length < 2 + 2 * n ∨ 512 < n ∨
      ¬(drops.Pairwise (· < ·) ∧ ∀ d ∈ drops, d ≤ 511)
    let pageBad := c.length < 5 ∨ n ≠ drop ∨ readU c 2 1 ≠ page ∨ 8 < readU c 4 1
    let descriptors := readDescriptors (readU c 4 1) (c.drop 5)
    let sections := readSections r.roster.length (c.drop 1)
    (contentsOutcome r .arm c = if c = [] then .good else .extraData) ∧
    (rosterBad → contentsOutcome r .roster c = .framing) ∧
    (¬rosterBad → contentsOutcome r .roster c = if 2 + 2 * n < c.length then .extraData else .good) ∧
    (pageBad ∨ descriptors = none → contentsOutcome r (.catalogue drop page) c = .framing) ∧
    (∀ ds rest, ¬pageBad → descriptors = some (ds, rest) →
      contentsOutcome r (.catalogue drop page) c = if rest = [] then .good else .extraData) ∧
    (c = [] ∨ sections = none → contentsOutcome r .exchange c = .framing) ∧
    ∀ xs rest, c ≠ [] → sections = some (xs, rest) →
      contentsOutcome r .exchange c = if rest = [] then .good else .extraData) ∧
  ∀ (n : Nat) (bs : List Byte),
    let fixed := readBit bs 3 0
    let base := if fixed then 16 else 12
    let name := readU bs base 1
    let short := bs.length < base + 1 ∨ 15 < name ∨ bs.length < base + 1 + name
    let d : Descriptor :=
      { width := readU bs 2 1, min := readS bs 4 4, max := readS bs 8 4
        fixedValue := if fixed then some (readS bs 12 4) else none
        name := (bs.drop (base + 1)).take name
        kind := match readU bs 0 1 with
          | 1 => .soc | 2 => .energy | 3 => .dischargePower | 4 => .chargePower | 5 => .efficiency
          | 6 => .feeder | 7 => .measuredPower | 8 => .setpoint | 9 => .pad | _ => .unknown (bs.getD 0 0)
        dir := match readU bs 1 1 with
          | 1 => .fixed | 2 => .reported | 3 => .commanded | _ => .unknown (bs.getD 1 0) }
    let count := readU bs 1 1
    let few := bs.length < 2 ∨ 16 < count ∨ bs.length < 2 + count
    let x : DropSection := { present := readBit bs 0 0, bytes := (bs.drop 2).take count }
    readDescriptors 0 bs = some ([], bs) ∧ readSections 0 bs = some ([], bs) ∧
    (short → readDescriptors (n + 1) bs = none) ∧
    (¬short → readDescriptors (n + 1) bs =
      (readDescriptors n (bs.drop (base + 1 + name))).map fun p => (d :: p.1, p.2)) ∧
    (few → readSections (n + 1) bs = none) ∧
    (¬few → readSections (n + 1) bs =
      (readSections n (bs.drop (2 + count))).map fun p => (x :: p.1, p.2))

/-- Discovery. ARM and ROSTER: a good ARM moves to ROSTER, a good ROSTER takes the roster and moves to its first
drop or, with an empty roster, completes; a failed attempt of either is repeated with the next attempt number,
and the third sends the channel to FAULTED with TIMEOUT (R35, R36, R39, R50). CATALOGUE: a page's records are
added, page 1 is read when page 0 says so, a second further page rejects the unit PAYLOAD_TOO_LONG, a second
failed attempt MISSING_RECORD, and a complete catalogue is judged; then the next drop, or the channel is IDLING
and CHANNEL is raised (R37, R39). The checks of a catalogue in their order (R38), and what an accepted and a
rejected catalogue write to the unit (R11 to R13; an accepted one owes no event of an exclusion, log 35). -/
def Obligations.ArmAnswersMoveDiscovery : Prop :=
  (∀ (k : Fin 8) (s : State) (w : Nat) (d : Discovery), s.resetHeld = false →
    (channelOf s k).line = .awaiting .arm .discovery w → (channelOf s k).discovery = some d →
    d.step = .arm →
    exec (.channelAnswer k ((channelWire 0x81#8 []).map .ok)) s = .next (settle
      (setChannel k { channelOf s k with
        line := .free
        discovery := some { step := .roster, attempt := 1, position := 0, page := 0, records := [] } } s)) ∧
    (d.attempt < 3 → exec (.replyWaitExpiry k) s = .next (settle
      (setChannel k { channelOf s k with
        line := .free, discovery := some { d with attempt := d.attempt + 1 } } s))) ∧
    (3 ≤ d.attempt → ∃ T, exec (.replyWaitExpiry k) s = .next (settle T) ∧
      channelOf T k = { channelOf s k with
        line := .free, state := .faulted, discovery := none, armPending := false,
        exchangePending := false, haltPending := true
        sticky := { (channelOf s k).sticky with timeout := true } } ∧
      T.links.tl.notices.channel = true ∧ T.shares = s.shares ∧
      NewlyMarked s T (fun n _ => ∃ r ∈ s.shares, r.entry = n ∧ channelOfUnit r.unit = k))) ∧
  (∀ (k : Nat) (o : ReplyOutcome) (c : List Byte) (s : State) (d : Discovery),
    (channelOf s k).discovery = some d →
    let t := discoveryOutcome k o c s
    let r := channelOf s k
    let put := fun (d' : Discovery) => setChannel k { r with discovery := some d' } s
    let drop := fun (n : Nat) => some
      ({ step := .catalogue, attempt := 1, position := n, page := 0, records := [] } : Discovery)
    let i := 512 * k + r.roster.getD d.position 0
    let wrote := fun (u : UnitRec) =>
      if d.position + 1 < r.roster.length then
        setChannel k { r with discovery := drop (d.position + 1) } (setUnit i u s)
      else raiseChannel k (setChannel k { r with discovery := none, state := .idling } (setUnit i u s))
    let rejected := fun reason =>
      wrote { unitOf s i with state := .rejected reason, pd := 0, pc := 0, catalogue := [] }
    (d.step = .arm → o = .good →
      t = put { step := .roster, attempt := 1, position := 0, page := 0, records := [] }) ∧
    (d.step = .roster → o = .good → readDrops c = [] →
      t = raiseChannel k (setChannel k { r with roster := [], discovery := none, state := .idling } s)) ∧
    (d.step = .roster → o = .good → readDrops c ≠ [] →
      t = setChannel k { r with roster := readDrops c, discovery := drop 0 } s) ∧
    (d.step ≠ .catalogue → o ≠ .good → d.attempt < 3 → t = put { d with attempt := d.attempt + 1 }) ∧
    (d.step ≠ .catalogue → o ≠ .good → 3 ≤ d.attempt →
      channelOf t k = afterFault { r with sticky := { r.sticky with timeout := true } } ∧
      (∀ j, j ≠ k → channelOf t j = channelOf s j) ∧ ChannelRaised s t k ∧
      NewlyMarked s t (fun n _ => ∃ r ∈ s.shares, r.entry = n ∧ channelOfUnit r.unit = k)) ∧
    (∀ ds rest, d.step = .catalogue → o = .good →
      readDescriptors (readU c 4 1) (c.drop 5) = some (ds, rest) →
      let more := readBit c 3 0
      (more = true → d.page = 0 → t = put { d with attempt := 1, page := 1, records := d.records ++ ds }) ∧
      (more = true → d.page ≠ 0 → t = rejected .payloadTooLong) ∧
      (more = false → catalogueFault (d.records ++ ds) = none → t = wrote (acceptedUnit (d.records ++ ds))) ∧
      (∀ reason, more = false → catalogueFault (d.records ++ ds) = some reason → t = rejected reason)) ∧
    (d.step = .catalogue → o ≠ .good → d.attempt < 2 → t = put { d with attempt := d.attempt + 1 }) ∧
    (d.step = .catalogue → o ≠ .good → 2 ≤ d.attempt → t = rejected .missingRecord)) ∧
  ∀ cat : List Descriptor,
    let width := fun (ds : List Descriptor) => (ds.map Descriptor.width).sum
    catalogueFault cat =
      (if cat = [] then some .missingRecord
       else if ∃ d ∈ cat, some d.dir ≠ (match d.kind with
         | .soc | .measuredPower | .pad => some .reported
         | .setpoint => some .commanded
         | .energy | .feeder | .dischargePower | .chargePower | .efficiency => some .fixed
         | .unknown _ => none) then some .badKind
       else if ¬((cat.map Descriptor.kind).filter fun x => x ≠ .pad).Nodup then some .badKind
       else if ∃ d ∈ cat, ¬(d.dir = .fixed ↔ d.fixedValue ≠ none) then some .badKind
       else if ∃ d ∈ cat, d.dir ≠ .fixed ∧ ¬(1 ≤ d.width ∧ d.width ≤ 32) then some .badWidth
       else if ∃ x ∈ [DescKind.soc, .measuredPower, .setpoint, .energy, .feeder], x ∉ cat.map Descriptor.kind then
         some .missingRecord
       else if ∃ d ∈ cat, (d.kind = .soc ∧ d.max < d.min) ∨ ((d.kind = .measuredPower ∨ d.kind = .setpoint) ∧
         (d.width < 2 ∨ d.max ≤ 0 ∨ d.min ≠ -d.max)) then some .badScale
       else if 128 < width (cat.filter fun d => d.dir == .reported) then some .payloadTooLong
       else if ∃ d ∈ cat, d.kind = .feeder ∧ (d.fixedValue.getD 0 < 0 ∨ 63 < d.fixedValue.getD 0) then
         some .badFeeder
       else none) ∧
    let value := fun (x : DescKind) (low high : Int) (none_ : Nat) =>
      match cat.find? (fun d => d.kind == x) with
      | none => none_
      | some d => (max low (min high (d.fixedValue.getD 0))).toNat
    acceptedUnit cat =
      { state := .probing
        site := BitVec.ofNat 32 ((cat.flatMap Descriptor.name).foldl (fun a b => (a * 33 + b.toNat) % 4294967296) 0)
        feeder := value .feeder 0 63 0, pd := value .dischargePower 0 30000 0
        pc := value .chargePower 0 30000 0, energy := value .energy 1 60000 0
        eta := value .efficiency 500 1000 950, soc := 0, measured := 0, floor := 200, ceiling := 950
        excluded := false, miss := 0, run := 0, catalogue := cat, owesEvent := false }

/-- EXCHANGE answers and the re-arming ARM. A failed answer adds its fault, hands a missing report to every unit
of the roster, counts one more failure, places the channel in the round's failed set, takes it out of the
outstanding set, and at a count of 3 sends it to FAULTED (R15, R48, R50). A frame of the kind awaited is judged
by its contents (R33), and the sections of an EXCHANGE answer are read as R180 lays them out. A good answer
copies the fault indication, hands each section's report to its unit, in drop order, sets the failure count to 0
and leaves the outstanding set; with the watchdog bitten the count stays and the channel goes to FAULTED (R46,
R47, R49). A report decodes SoC and power, counts and clears misses, moves the unit between PROBING, READY and
LOST, and marks the entries its contribution event names (R14, R15, R20, R21, R26 to R28; R162 for an excluded
unit, log 35). CHANNEL is raised when the sticky fault set gains a member, the indication changes, or the channel
goes to FAULTED, and else not (R54, R176). The re-arming ARM
counts as an exchange without reports, and the channel it faults leaves the round unfailed (R53). The order of
a round's completion among these effects is log 7, tables are as in log 17. -/
def Obligations.FailedExchangeIsCounted : Prop :=
  (∀ (k : Nat) (o : ReplyOutcome) (s : State), o ≠ .good →
    let t := failedExchange k o s
    let three := 3 ≤ (channelOf s k).failures + 1
    (channelOf t k).failures = (channelOf s k).failures + 1 ∧
    (channelOf t k).sticky =
      { addFault (channelOf s k).sticky o with
        tooMany := decide three || (channelOf s k).sticky.tooMany } ∧
    (channelOf t k).state = (if three then .faulted else (channelOf s k).state) ∧
    (∀ j, j ≠ k → channelOf t j = channelOf s j) ∧
    (∀ r, t.ctl.round = some r → k ∉ r.outstanding ∧ k ∈ r.failed) ∧
    (∀ r, s.ctl.round = some r → r.outstanding = [k] →
      t.ctl.round = none ∧ k ∈ t.ctl.failedMask) ∧
    t.shares = s.shares ∧
    (TablesCanonical s →
      (∀ i, unitOf t i = (channelOf s k).roster.foldl
        (fun u d => if 512 * k + d = i then afterMiss s.fleet.lostLimit u else u) (unitOf s i)) ∧
      NewlyMarked s t (fun n _ => ∃ r ∈ s.shares, r.entry = n ∧
        ((contributing s r.unit = true ∧ (unitOf t r.unit).state = .lost) ∨
          (three ∧ channelOfUnit r.unit = k))) ∧
      ((channelOf t k).sticky ≠ (channelOf s k).sticky ∨ three → ChannelRaised s t k) ∧
      ((channelOf t k).sticky = (channelOf s k).sticky → ¬three →
        ∀ l, (linkOf t l).notices.channel = (linkOf s l).notices.channel))) ∧
  (∀ (r : ChannelRec) (frame : ChannelFrame) (c : List Byte), c.length < 65535 →
    judgeAnswer r frame ((channelWire (answerKind frame) c).map .ok) = (contentsOutcome r frame c, c)) ∧
  (∀ (r : ChannelRec) (status : Byte) (xs : List DropSection), (∀ x ∈ xs, x.bytes.length ≤ 16) →
    let body := xs.flatMap fun x => putFlags [x.present] ++ putU 1 x.bytes.length ++ x.bytes
    (∀ rest, readSections xs.length (body ++ rest) = some (xs, rest)) ∧
    (r.roster.length = xs.length → contentsOutcome r .exchange (status :: body) = .good)) ∧
  (∀ (s : State) (k : Nat) (p : Nat × DropSection), TablesCanonical s →
    let t := dropReport k s p
    let i := 512 * k + p.1
    let u := unitOf s i
    let width := ((u.catalogue.filter fun d => d.dir == .reported).map Descriptor.width).sum
    let good := p.2.present = true ∧ p.2.bytes.length = (width + 7) / 8
    let known := u.state = .probing ∨ u.state = .ready ∨ u.state = .lost
    let late := u.state ≠ .ready ∧ (unitOf t i).state = .ready ∧ u.excluded = true ∧ u.owesEvent = true ∧
      onRunningChannel s i = true
    (¬known → t = s) ∧
    (known →
      { t with fleet := s.fleet, eval := s.eval, track := s.track } = s ∧
      { t.fleet with units := s.fleet.units } = s.fleet ∧ MarksOnly s t ∧
      (late ∨ (contributing s i = true ∧ contributing t i = false) → Disturbs s t (fun j => j == i)) ∧
      (¬late → contributing s i = false ∨ contributing t i = true → t.eval.job = s.eval.job) ∧
      (∀ j, unitOf t j = if j ≠ i then unitOf s j
        else if good then afterGood (onRunningChannel s i) (natOfBytes p.2.bytes % 2 ^ width) u else afterMiss s.fleet.lostLimit u) ∧
      t.track = (if good then { s.track with reported := setInsert s.track.reported i } else s.track) ∧
      NewlyMarked s t (fun n e =>
        (contributing s i = false ∧ contributing t i = true ∧ e.uncovered ≠ 0) ∨
        (late ∧ ∃ r ∈ s.shares, r.entry = n ∧ r.unit = i) ∨
        (contributing s i = true ∧ contributing t i = false ∧ ∃ r ∈ s.shares, r.entry = n ∧ r.unit = i)))) ∧
  (∀ (cat before after : List Descriptor) (d : Descriptor) (bits : Nat),
    cat.filter (fun x => x.dir == .reported) = before ++ d :: after → (∀ x ∈ before, x.kind ≠ d.kind) →
    let raw := bits / 2 ^ (before.map Descriptor.width).sum % 2 ^ d.width
    let signed : Int := if raw < 2 ^ (d.width - 1) then raw else (raw : Int) - 2 ^ d.width
    (d.kind = .soc → reportedSoc cat bits = some
      (max 0 (min 1000 (d.min + Int.fdiv (raw * (d.max - d.min)) (2 ^ d.width - 1)))).toNat) ∧
    (d.kind = .measuredPower → reportedPower cat bits = some
      (if signed = -2 ^ (d.width - 1) then -d.max else Int.tdiv (signed * d.max) (2 ^ (d.width - 1) - 1)))) ∧
  (∀ (k : Nat) (c : List Byte) (s : State) (xs : List DropSection) (rest : List Byte), TablesCanonical s →
    readSections (channelOf s k).roster.length (c.drop 1) = some (xs, rest) →
    let t := goodExchange k c s
    let copied := { channelOf s k with fault := readBit c 0 1 }
    let told := if (channelOf s k).fault = readBit c 0 1 then s else raiseChannel k (setChannel k copied s)
    let u := ((channelOf s k).roster.zip xs).foldl (dropReport k) told
    t.fleet = u.fleet ∧ t.track.reported = u.track.reported ∧ (∀ j, j ≠ k → channelOf t j = channelOf s j) ∧
    (readBit c 0 0 = false → t.eval = u.eval ∧ channelOf t k = { copied with failures := 0 } ∧
      ((channelOf s k).fault ≠ copied.fault → ChannelRaised s t k) ∧
      ((channelOf s k).fault = copied.fault →
        ∀ l, (linkOf t l).notices.channel = (linkOf s l).notices.channel)) ∧
    (readBit c 0 0 = true →
      channelOf t k = afterFault { copied with sticky := { copied.sticky with watchdogBite := true } } ∧
      ChannelRaised s t k ∧ NewlyMarked u t (fun n _ => ∃ r ∈ s.shares, r.entry = n ∧ channelOfUnit r.unit = k)) ∧
    ∀ r, s.ctl.round = some r →
      ((∀ j ∈ r.outstanding, j = k) → t.ctl.round = none ∧ t.ctl.failedMask = r.failed) ∧
      ((∃ j ∈ r.outstanding, j ≠ k) →
        t.ctl.round = some { r with outstanding := r.outstanding.filter fun j => j ≠ k })) ∧
  ∀ (k : Nat) (o : ReplyOutcome) (s : State), TablesCanonical s → (channelOf s k).state ≠ .faulted →
    let t := rearmOutcome k o s
    let three := 3 ≤ (channelOf s k).failures + 1
    let counted := { channelOf s k with
      failures := (channelOf s k).failures + 1, sticky := addFault (channelOf s k).sticky o }
    (o = .good → t = setChannel k { channelOf s k with failures := 0 } s) ∧
    (o ≠ .good → t.fleet = s.fleet ∧ (∀ j, j ≠ k → channelOf t j = channelOf s j) ∧
      (¬three → channelOf t k = counted ∧ t.ctl.round = s.ctl.round ∧ t.eval = s.eval ∧
        (counted.sticky ≠ (channelOf s k).sticky → ChannelRaised s t k) ∧
        (counted.sticky = (channelOf s k).sticky →
          ∀ l, (linkOf t l).notices.channel = (linkOf s l).notices.channel)) ∧
      (three → channelOf t k = afterFault { counted with sticky := { counted.sticky with tooMany := true } } ∧
        ChannelRaised s t k ∧ NewlyMarked s t (fun n _ => ∃ r ∈ s.shares, r.entry = n ∧ channelOfUnit r.unit = k) ∧
        ∀ r, s.ctl.round = some r →
          ((∀ j ∈ r.outstanding, j = k) → t.ctl.round = none ∧ t.ctl.failedMask = r.failed) ∧
          ((∃ j ∈ r.outstanding, j ≠ k) →
            t.ctl.round = some { r with outstanding := r.outstanding.filter fun j => j ≠ k })))

/-- The exchange timer runs on. With a round in flight its expiry sets the overrun flag; else a round
begins: the figures and the roll are formed, every IDLING or RUNNING channel takes part with one EXCHANGE
due, and a round with no channel completes at once (R44, R52, R131, R145). -/
def Obligations.ExchangeTimerBeginsARound : Prop :=
  ∀ s : State, s.resetHeld = false → s.ctl.exchangeTimer.isSome = true →
    let armed : State := { s with ctl := { s.ctl with exchangeTimer := some s.ctl.period } }
    let cs := (List.range 8).filter fun k =>
      decide ((channelOf s k).state = .idling) || decide ((channelOf s k).state = .running)
    let begun : State := { armed with
      ctl := { armed.ctl with round := some { participating := cs, outstanding := cs, failed := [] } }
      disp := { s.disp with figures := some (formFigures s) }
      track := { s.track with
        roll := some
          { entries := (s.book.entries.filter fun p => p.2.state == .active).map fun p =>
              { entry := p.1, product := p.2.product, awarded := p.2.awarded.getD 0 }
            slot := s.time.slot, period := s.ctl.period }
        reported := [] } }
    (s.ctl.round.isSome = true → exec .exchangeTimerExpiry s = .next (settle
      { armed with ctl := { armed.ctl with overrun := true } })) ∧
    (s.ctl.round = none → cs = [] → exec .exchangeTimerExpiry s = .next (settle (completeRound begun))) ∧
    (s.ctl.round = none → cs ≠ [] → ∃ T, exec .exchangeTimerExpiry s = .next (settle T) ∧
      { T with ctl := { T.ctl with channels := s.ctl.channels } } = begun ∧
      ∀ k, channelOf T k =
        if k ∈ cs then { channelOf s k with exchangePending := true } else channelOf s k)

/-- A round's completion. It stores the failed channels and removes the round (R51). The margin is computed from
the entries ACTIVE then and the live units: each direction's obligation, its deliverable over the 64 feeder
groups at the largest endurance sold, its ratio, its state, the overall state and the line; MARGIN is raised
towards TL and GL when the overall state changes, and on no other link or occasion (R154 to R156). Each
accumulator of the round's slot, the held one before the current one, takes the requested energy of its entry,
its part of the measured power of every reported unit in a round of the normal method, one shortfall round for
an orphaned entry when there was a shortfall, held at 3600, and the override mark (R146 to R148). The held
accumulators become delivery records in ascending entry number, and an empty queue raises RECORDS (R149, R151;
an account without an entry: log 24). Tables as in log 17. -/
def Obligations.RoundCompletionComputesTheMargin : Prop :=
  (∀ (s : State) (r : Round), s.ctl.round = some r →
    let t := completeRound s
    let m := s.margin
    let up := fun (p : Product) => p == .fsr || p == .rsu
    let down := fun (p : Product) => p == .fsr || p == .rsd
    let active := fun (p : Product → Bool) => s.book.entries.filter fun q => q.2.state == .active && p q.2.product
    let sold := fun (p : Product → Bool) => ((active p).map fun q => q.2.awarded.getD 0 * 1000).sum
    let longest := fun (p : Product → Bool) (T : Nat) =>
      (∃ q ∈ active p, enduranceOf s.book.endurance q.2.product = T) ∧
        ∀ q ∈ active p, enduranceOf s.book.endurance q.2.product ≤ T
    let live := (s.fleet.units.map Prod.fst).filter (contributing s)
    let held := fun (figure : UnitRec → Nat) (limit : FeederLimits → Nat) =>
      ((List.range 64).map fun g => min (limit (feederOf s g) * 1000)
        ((live.filter fun i => (unitOf s i).feeder == g).map fun i => figure (unitOf s i)).sum).sum
    let moved := fun (before : MarginState) (x : Nat) => match before with
      | .sound => if x < m.short then .short else if x < m.warn then .thin else .sound
      | .thin => if x < m.short then .short else if m.warn + m.hysteresis ≤ x then .sound else .thin
      | .short => if m.warn + m.hysteresis ≤ x then .sound
          else if m.short + m.hysteresis ≤ x then .thin else MarginState.short
    let worst := fun (a b : MarginState) =>
      if a = .short ∨ b = .short then .short else if a = .thin ∨ b = .thin then .thin else MarginState.sound
    t.ctl = { s.ctl with round := none, failedMask := r.failed } ∧
    t.fleet = s.fleet ∧ t.book = s.book ∧ t.eval = s.eval ∧ t.disp = s.disp ∧ NoticesOnly s t ∧
    t.margin.up.obligation = sold up ∧ t.margin.down.obligation = sold down ∧
    (∀ T, longest up T → sold up ≠ 0 → t.margin.up.deliverable = held (fun u =>
      min (if u.floor < u.soc then u.pd else 0)
        ((u.soc - u.floor) * u.energy / 1000 * u.eta / 1000 * 3600 / T)) FeederLimits.exportKw) ∧
    (∀ T, longest down T → sold down ≠ 0 → t.margin.down.deliverable = held (fun u =>
      min (if u.soc < u.ceiling then u.pc else 0)
        ((u.ceiling - u.soc) * u.energy / 1000 * 3600 / T)) FeederLimits.importKw) ∧
    (∀ d : MarginDir, d = t.margin.up ∨ d = t.margin.down →
      (d.obligation = 0 → d.ratio = 9999 ∧ d.deliverable = 0) ∧
      (d.obligation ≠ 0 → d.ratio = min 9999 (d.deliverable * 1000 / d.obligation))) ∧
    t.margin.up.state = moved m.up.state t.margin.up.ratio ∧
    t.margin.down.state = moved m.down.state t.margin.down.ratio ∧
    t.margin.overall = worst t.margin.up.state t.margin.down.state ∧
    (m.mode = .level → t.margin.asserted =
      if t.margin.overall = m.overall then m.asserted else decide (t.margin.overall ≠ .sound)) ∧
    (m.mode = .latched → t.margin.asserted =
      (m.asserted || decide (t.margin.overall ≠ m.overall ∧ worst t.margin.overall m.overall = t.margin.overall))) ∧
    { t.margin with up := m.up, down := m.down, overall := m.overall, asserted := m.asserted } = m ∧
    (t.margin.overall ≠ m.overall → t.links.tl.notices.margin = true ∧ t.links.gl.notices.margin = true) ∧
    (∀ l, l = .fa ∨ l = .fb ∨ t.margin.overall = m.overall →
      (linkOf t l).notices.margin = (linkOf s l).notices.margin)) ∧
  ∀ (s : State) (r : Round) (roll : Roll) (f : RoundFigures), TablesCanonical s → s.ctl.round = some r →
    s.track.roll = some roll → s.disp.figures = some f →
    let t := completeRound s
    let requested := fun n => (roll.entries.filter fun e => e.entry = n).map fun e =>
      (e.awarded : Int) * (match e.product with
        | .fsr => f.aF
        | .rsu => f.aU
        | .rsd => -f.aD) * roll.period
    let delivered := fun n => if f.method = .normal then s.track.reported.flatMap fun u =>
        let x := (unitOf s u).measured
        let duty := (tableFind f.duties u).getD []
        let total := (duty.map Prod.snd).sum
        if (0 < x ∧ 0 < total) ∨ (x < 0 ∧ total < 0) then
          (duty.filter fun p => p.1 = n).map fun p => Int.tdiv (x * p.2) total * roll.period
        else []
      else []
    let short := fun n => if f.shortfall = 0 then 0 else (f.orphans.filter fun p => p.1 = n).length
    let credited := fun (n : Nat) (a : Accumulator) => { a with
      requestedUp := a.requestedUp + ((requested n).map Int.toNat).sum
      requestedDown := a.requestedDown + ((requested n).map fun x => (-x).toNat).sum
      deliveredUp := a.deliveredUp + ((delivered n).map Int.toNat).sum
      deliveredDown := a.deliveredDown + ((delivered n).map fun x => (-x).toNat).sum
      shortfallRounds := if short n = 0 then a.shortfallRounds else min 3600 (a.shortfallRounds + short n)
      overrideMark := a.overrideMark || (decide (f.method = .zeroHalt ∨ f.method = .fullUp) &&
        roll.entries.any fun e => e.entry == n) }
    t.track.held = [] ∧ t.track.roll = none ∧ t.track.reported = s.track.reported ∧
    (∀ n, tableFind t.track.current n = (tableFind s.track.current n).map fun a =>
      if a.slot = roll.slot ∧ (tableFind s.track.held n).map Accumulator.slot ≠ some roll.slot then
        credited n a else a) ∧
    t.track.queue = recordsEmitted s
      (s.track.held.map fun p => (p.1, if p.2.slot = roll.slot then credited p.1 p.2 else p.2)) s.track.queue ∧
    (t.links.tl.notices.records = true ↔
      s.links.tl.notices.records = true ∨ (s.track.queue = [] ∧ t.track.queue ≠ []))

/-! ### The Commitment Book -/

/-- PRODUCT queries a product's row, or sets its endurance while no entry of the product is non-terminal
and no OFFER of it waits or runs (R60). -/
def Obligations.ProductSetsTheEndurance : Prop :=
  ∀ (tag : Byte) (c : List Byte) (s : State), CanTake s .gl → c.length = 3 →
    let h := frameComplete .gl s
    let v := readU c 1 2
    (productOf (readU c 0 1) = none →
      exec (.product .gl tag c) s = .next (settle (answered .product .gl tag .badRequest [] h))) ∧
    ∀ p, productOf (readU c 0 1) = some p →
      let held := (∃ q ∈ s.book.entries, q.2.product = p ∧ nonTerminal q.2.state = true) ∨
        (∃ o, s.eval.slot = some (.offer o) ∧ o.product = p) ∨
        (∃ j o, s.eval.job = some j ∧ j.kind = .offer o ∧ o.product = p)
      (v = 0 → exec (.product .gl tag c) s = .next (settle (answered .product .gl tag .done
        (putU 1 (dirCode (classOfProduct p)) ++ putU 2 (enduranceOf s.book.endurance p)) h))) ∧
      (v ≠ 0 → ¬EnduranceInRange v →
        exec (.product .gl tag c) s = .next (settle (answered .product .gl tag .badRange [] h))) ∧
      (EnduranceInRange v → held →
        exec (.product .gl tag c) s = .next (settle (answered .product .gl tag .wrongState [] h))) ∧
      (EnduranceInRange v → ¬held → exec (.product .gl tag c) s = .next (settle
        (answered .product .gl tag .done (putU 1 (dirCode (classOfProduct p)) ++ putU 2 v)
          { h with book := { s.book with endurance := setEndurance s.book.endurance p v } })))

/-- An OFFER and a QUOTE are checked in the order of their rules; one that passes waits in the TL job slot
with its request in process, and is not answered before its job completes (R6, R61, R81, R82). -/
def Obligations.TlRequestsWaitForTheirJob : Prop :=
  ∀ (tag : Byte) (c : List Byte) (s : State), CanTake s .tl →
    let h := frameComplete .tl s
    let now := s.time.slot
    (c.length = 13 →
      let ref := readU c 0 4
      let first := readU c 5 4
      let n := readU c 9 1
      let quantity := readU c 10 2
      let full := ∀ k < 1024, (entryOf s k).isSome = true
      let used := ∃ q ∈ s.book.entries, q.2.ref = ref
      (s.time.timeSet = false →
        exec (.offer .tl tag c) s = .next (settle (answered .offer .tl tag .noTime [] h))) ∧
      (s.time.timeSet = true → productOf (readU c 4 1) = none →
        exec (.offer .tl tag c) s = .next (settle (answered .offer .tl tag .badRequest [] h))) ∧
      ∀ p, s.time.timeSet = true → productOf (readU c 4 1) = some p →
        (full → exec (.offer .tl tag c) s = .next (settle (answered .offer .tl tag .bookFull [] h))) ∧
        (¬full → used →
          exec (.offer .tl tag c) s = .next (settle (answered .offer .tl tag .duplicateRef [] h))) ∧
        (¬full → ¬used → exec (.offer .tl tag c) s = .next (settle
          (if first ≤ now + s.time.gate then answered .offer .tl tag .tooLate [] h
           else if now + 192 < first then answered .offer .tl tag .badRange [] h
           else if n < 1 ∨ 96 < n ∨ 4294967294 < first + n - 1 then answered .offer .tl tag .badRange [] h
           else if quantity = 0 then answered .offer .tl tag .badRange [] h
           else processing .offer .tl tag { h with eval := { s.eval with slot := some (.offer
             { ref := ref, product := p, first := first, count := n, quantity := quantity,
               exact := readBit c 12 0 }) } })))) ∧
    (c.length = 6 →
      let first := readU c 1 4
      let n := readU c 5 1
      (s.time.timeSet = false →
        exec (.quote .tl tag c) s = .next (settle (answered .quote .tl tag .noTime [] h))) ∧
      (s.time.timeSet = true → productOf (readU c 0 1) = none →
        exec (.quote .tl tag c) s = .next (settle (answered .quote .tl tag .badRequest [] h))) ∧
      ∀ p, s.time.timeSet = true → productOf (readU c 0 1) = some p →
        exec (.quote .tl tag c) s = .next (settle
          (if n < 1 ∨ 96 < n ∨ 4294967295 < first + n - 1 then answered .quote .tl tag .badRange [] h
           else if first < now + 1 ∨ now + 192 < first then answered .quote .tl tag .badRange [] h
           else processing .quote .tl tag { h with eval := { s.eval with
             slot := some (.quote { product := p, first := first, count := n }) } })))

/-- AWARD, WITHDRAW, DISCARD and RELEASE find their entry by number and trade reference, and ENTRY by its
number alone; the first check that fails gives the answer, and nothing changes (R58). That ENTRY finds its entry
before it judges the page it names is the model's choice (log 11). -/
def Obligations.EntryIsFoundByNumberAndReference : Prop :=
  ∀ (q : Request) (l : Link) (tag : Byte) (c : List Byte) (s : State), CanTake s l →
    (q = .award ∧ l = .tl ∧ s.time.timeSet = true) ∨ (q = .withdraw ∧ l = .tl) ∨ (q = .discard ∧ l = .tl) ∨
      (q = .release ∧ l = .gl) ∨ (q = .entry ∧ (l = .tl ∨ l = .gl)) →
    c.length = contentsLength q →
    let h := frameComplete l s
    let n := readU c 0 2
    (1023 < n → exec (commandOf q l tag c) s = .next (settle (answered q l tag .badRange [] h))) ∧
    (n ≤ 1023 → entryOf s n = none →
      exec (commandOf q l tag c) s = .next (settle (answered q l tag .noEntry [] h))) ∧
    (∀ e, n ≤ 1023 → entryOf s n = some e → q ≠ .entry → readU c 2 4 ≠ e.ref →
      exec (commandOf q l tag c) s = .next (settle (answered q l tag .noEntry [] h)))

/-- AWARD of an OFFERED entry fixes its awarded kW, no higher than the offered kW, trims its records to the
backing target and holds its uncovered W within it; an AWARD of 0 withdraws it; and an entry in another
state is refused (R63, R64, R110). A running replan of the awarded entry, and no other job, learns of the AWARD
(R88). -/
def Obligations.AwardFixesTheQuantity : Prop :=
  ∀ (tag : Byte) (c : List Byte) (s : State) (n : Nat) (e : Entry), CanTake s .tl → c.length = 8 →
    let h := frameComplete .tl s
    let a := readU c 6 2
    let granted := min a e.offered
    let target := backingTarget granted s.eval.holdback
    let kept := trimRecords s.eval.minShare target (entryRecords s.shares n)
    (s.time.timeSet = false →
      exec (.award .tl tag c) s = .next (settle (answered .award .tl tag .noTime [] h))) ∧
    (s.time.timeSet = true → Names s c n e → e.state = .lapsed →
      exec (.award .tl tag c) s = .next (settle (answered .award .tl tag .tooLate [] h))) ∧
    (s.time.timeSet = true → Names s c n e → e.state ≠ .lapsed → e.state ≠ .offered →
      exec (.award .tl tag c) s = .next (settle (answered .award .tl tag .wrongState [] h))) ∧
    (s.time.timeSet = true → Names s c n e → e.state = .offered → a = 0 →
      exec (.award .tl tag c) s = .next (settle
        (answered .award .tl tag .done (putU 2 n ++ putU 1 6 ++ putU 2 0)
          (setShares (s.shares.filter fun r => r.entry ≠ n)
            (setEntry n { e with state := .withdrawn, uncovered := 0 } h))))) ∧
    (s.time.timeSet = true → Names s c n e → e.state = .offered → a ≠ 0 →
      ∃ rs, exec (.award .tl tag c) s = .next (settle
          (answered .award .tl tag .done (putU 2 n ++ putU 1 2 ++ putU 2 e.offered ++ putU 2 granted)
            (noteAward n (setEntry n
              { e with state := .awarded, awarded := some granted,
                       uncovered := min e.uncovered (target - powerSum kept) } (setShares rs h))))) ∧
        entryRecords rs n = kept ∧ ∀ k, k ≠ n → entryRecords rs k = entryRecords s.shares k) ∧
    noteAward n s = { s with eval := { s.eval with job := s.eval.job.map fun j => match j.kind with
      | .quote _ => j
      | .offer _ => j
      | .replan m _ => if m = n then { j with awardTaken := true } else j } }

/-- A trim to a target takes the records in reverse allocation order, each by its power and the excess left: one
no greater than the excess is removed, one that keeps at least q is reduced and ends the trim, any other is left
and the trim goes on to the records before it. It keeps the records in order, takes none below the target's sum,
reduces no record below q, keeps powers multiples of 10, and an excess left over is less than the power of every
record left (R109). -/
def Obligations.TrimKeepsTheTarget : Prop :=
  ∀ (q target : Nat) (rs : List ShareRec),
    let out := trimRecords q target rs
    (powerSum rs ≤ target → out = rs) ∧
    (target ≤ powerSum rs → target ≤ powerSum out) ∧
    List.Sublist (out.map ShareRec.num) (rs.map ShareRec.num) ∧
    (∀ r ∈ out, ∃ o ∈ rs, r = { o with power := r.power } ∧ r.power ≤ o.power ∧
      (r.power = o.power ∨ q ≤ r.power)) ∧
    ((∀ r ∈ rs, r.power % 10 = 0) → target % 10 = 0 → ∀ r ∈ out, r.power % 10 = 0) ∧
    (target < powerSum out → ∀ r ∈ out, powerSum out - target < r.power) ∧
    ∀ (before : List ShareRec) (r : ShareRec), rs = before ++ [r] → (∀ x ∈ rs, 0 < x.power) →
      target < powerSum rs →
      let excess := powerSum rs - target
      (r.power ≤ excess → out = trimRecords q target before) ∧
      (excess + q ≤ r.power → excess < r.power → out = before ++ [{ r with power := r.power - excess }]) ∧
      (excess < r.power → r.power < excess + q → out = trimRecords q (target - r.power) before ++ [r])

/-- WITHDRAW takes an OFFERED or AWARDED entry back and frees its records, and is refused LOCKED past the
gate; DISCARD frees the number of a terminal entry and clears its replan flag, unless a delivery record of
an ENDED or RELEASED entry is still owed (R66, R68). -/
def Obligations.WithdrawAndDiscardEntries : Prop :=
  ∀ (tag : Byte) (c : List Byte) (s : State) (n : Nat) (e : Entry), CanTake s .tl → c.length = 6 →
    Names s c n e →
    let h := frameComplete .tl s
    let owed := (e.state = .ended ∨ e.state = .released) ∧ (tableFind s.track.held n).isSome = true
    let T : State := { h with
      book := { s.book with entries := tableErase s.book.entries n }
      eval := { s.eval with replans := s.eval.replans.filter fun k => k ≠ n } }
    (e.state = .offered ∨ e.state = .awarded →
      exec (.withdraw .tl tag c) s = .next (settle
        (answered .withdraw .tl tag .done (putU 2 n ++ putU 1 6)
          (setShares (s.shares.filter fun r => r.entry ≠ n)
            (setEntry n { e with state := .withdrawn, uncovered := 0 } h))))) ∧
    (e.state = .locked ∨ e.state = .active →
      exec (.withdraw .tl tag c) s = .next (settle (answered .withdraw .tl tag .locked [] h))) ∧
    (nonTerminal e.state = false →
      exec (.withdraw .tl tag c) s = .next (settle (answered .withdraw .tl tag .wrongState [] h))) ∧
    (nonTerminal e.state = true ∨ owed →
      exec (.discard .tl tag c) s = .next (settle (answered .discard .tl tag .wrongState [] h))) ∧
    (nonTerminal e.state = false → ¬owed →
      exec (.discard .tl tag c) s = .next (settle (answered .discard .tl tag .done [] T)) ∧
      (TablesCanonical s → ∀ k, entryOf T k = if k = n then none else entryOf s k))

/-- RELEASE takes an AWARDED, LOCKED or ACTIVE entry off the part: it is RELEASED, its records are freed, it
is placed on the change list with cause STATE, and an ACTIVE entry's record is queued at once, flagged
released; an entry in another state is refused (R69, R75, R76, R150, R151). -/
def Obligations.ReleaseTakesTheEntryOff : Prop :=
  ∀ (tag : Byte) (c : List Byte) (s : State) (n : Nat) (e : Entry), CanTake s .gl → c.length = 6 →
    Names s c n e →
    let h := frameComplete .gl s
    let full := s.book.changes.length = 64 ∧ ∀ m ∈ s.book.changes, m.entry ≠ n
    (e.state ≠ .awarded → e.state ≠ .locked → e.state ≠ .active →
      exec (.release .gl tag c) s = .next (settle (answered .release .gl tag .wrongState [] h))) ∧
    (e.state = .awarded ∨ e.state = .locked ∨ e.state = .active →
      ∃ T, exec (.release .gl tag c) s = .next (settle
          (answered .release .gl tag .done (putU 2 n ++ putU 4 e.ref ++ putU 1 8) T)) ∧
        { T with book := h.book, shares := h.shares, track := h.track, links := h.links } = h ∧
        NoticesOnly h T ∧ T.links.tl.notices.entry = true ∧
        entryOf T n = some { e with state := .released, uncovered := 0 } ∧
        (∀ k, k ≠ n → entryOf T k = entryOf s k) ∧ T.book.endurance = s.book.endurance ∧
        T.shares = s.shares.filter (fun r => r.entry ≠ n) ∧
        (full → T.book.changes = s.book.changes ∧ T.book.more = true) ∧
        (¬full → s.book.changes.length ≤ 64 →
          T.book.more = s.book.more ∧ ∃ m ∈ T.book.changes, m.entry = n ∧ m.causeState = true) ∧
        (∀ m ∈ s.book.changes, m.entry ≠ n → m ∈ T.book.changes) ∧
        (e.state ≠ .active ∨ tableFind s.track.current n = none → T.track = s.track) ∧
        (∀ a, e.state = .active → tableFind s.track.current n = some a →
          let r : DeliveryRecord :=
            { entry := n, ref := e.ref, product := e.product, slot := a.slot, awarded := e.awarded.getD 0,
              requestedUp := a.requestedUp / 3600000, requestedDown := a.requestedDown / 3600000,
              deliveredUp := a.deliveredUp / 3600000, deliveredDown := a.deliveredDown / 3600000,
              shortfallRounds := a.shortfallRounds, released := true, override := a.overrideMark,
              gapBefore := decide (256 ≤ s.track.queue.length) }
          T.track = { s.track with
            current := tableErase s.track.current n
            queue := (if 256 ≤ s.track.queue.length then s.track.queue.drop 1 else s.track.queue) ++ [r] } ∧
          (s.track.queue = [] → T.links.tl.notices.records = true)))

/-- From gate closure on, nothing but RELEASE takes a LOCKED or ACTIVE entry off the part before its last
slot has passed, and nothing changes its sale: every command other than RELEASE and RESET (and than a
received frame of any code, which may be a RELEASE) leaves it LOCKED or ACTIVE, or finds it ENDED with its
last slot passed (R66, R68, R69, R73). -/
def Obligations.ClosedEntriesEndOnlyByRelease : Prop :=
  ∀ (i : Instr) (s t : State) (n : Nat) (e : Entry), TablesCanonical s → entryOf s n = some e →
    e.state = .locked ∨ e.state = .active → exec i s = .next t → i ≠ .reset →
    (∀ l tag c, i ≠ .release l tag c) → (∀ l code tag c, i ≠ .busy l code tag c) →
    (∀ l code tag c, i ≠ .unknownRequestCode l code tag c) → (∀ l chars, i ≠ .discardedFrame l chars) →
    ∃ e', entryOf t n = some e' ∧ { e' with state := e.state, uncovered := e.uncovered } = e ∧
      (e'.state = .locked ∨ e'.state = .active ∨ (e'.state = .ended ∧ lastSlot e < t.time.slot))

/-! ### The Evaluator and the Share Table -/

/-- The arbiter and the copy it freezes. A job in flight keeps the Evaluator; else a waiting TL request is
granted when the run count is 4 or no flag is set, the run count becoming 0; else the lowest flagged entry is
taken, its flag cleared and the run count raised, held at 4, and its replan runs, or is dropped when the entry
is free or terminal and the arbiter decides again (R84, R85; a flagged free number is log 20; the flags in
ascending order, log 17). A job plans on its copy alone, at its grant (R86; log 19). On the copy a unit's range
offerable is the least of its offerables over the slots of the range, a group's room the least of its rooms, and
the raw headroom the sum over 64 groups of their units' offerables held to their rooms (R91 to R96; a record's
endurance is that of the product of its class, log 26). A job that plans on a unit is disturbed by the events
that concern it (R87, R163; continuations count, log 25). -/
def Obligations.ArbiterDecidesInOrder : Prop :=
  (∀ s : State, TablesCanonical s →
    (s.eval.job.isSome = true → arbitrate s = s) ∧
    (s.eval.job = none → s.eval.slot = none → s.eval.replans = [] → arbitrate s = s) ∧
    (∀ r, s.eval.job = none → s.eval.slot = some r → s.eval.runCount = 4 ∨ s.eval.replans = [] →
      ∃ j, arbitrate s = { s with eval := { s.eval with job := some j, slot := none, runCount := 0 } } ∧
        (∀ q, r = .quote q → j.kind = .quote q ∧ j.plan = Plan.nothing) ∧
        (∀ o, r = .offer o → j.kind = .offer o ∧ j.plan = planOffer j.frozen o) ∧
        j.frozen = freeze { s with eval := { s.eval with slot := none, runCount := 0 } } ∧
        j.disturbed = false ∧ j.boundaryTaken = false ∧ j.awardTaken = false) ∧
    (∀ n, s.eval.job = none → s.eval.slot = none ∨ s.eval.runCount ≠ 4 → n ∈ s.eval.replans →
      (∀ k ∈ s.eval.replans, n ≤ k) →
      let taken : State := { s with eval := { s.eval with
        replans := s.eval.replans.filter fun k => k ≠ n, runCount := min 4 (s.eval.runCount + 1) } }
      (∀ e, entryOf s n = some e → nonTerminal e.state = true →
        ∃ j, arbitrate s = { taken with eval := { taken.eval with job := some j } } ∧
          j.kind = .replan n e ∧ j.frozen = freeze taken ∧ j.plan = planReplan j.frozen n e ∧
          j.disturbed = false ∧ j.boundaryTaken = false ∧ j.awardTaken = false) ∧
      ((∀ e, entryOf s n = some e → nonTerminal e.state = false) → arbitrate s = arbitrate taken)) ∧
    (let f := freeze s
     (∀ i, frozenUnit f i =
        { contributing := contributing s i, feeder := (unitOf s i).feeder, energy := (unitOf s i).energy
          soc := (unitOf s i).soc, floor := (unitOf s i).floor, ceiling := (unitOf s i).ceiling
          eta := (unitOf s i).eta, pd := (unitOf s i).pd, pc := (unitOf s i).pc
          confidence := if (unitOf s i).state = .lost then 0 else if 2 < (unitOf s i).miss then 500 else 1000 }) ∧
     f.shares = s.shares ∧ f.feeders = s.fleet.feeders ∧ f.endurance = s.book.endurance ∧
     f.holdback = s.eval.holdback ∧ f.minShare = s.eval.minShare ∧ f.slot = s.time.slot ∧
     f.start = s.eval.start ∧ f.free = 32768 - s.shares.length)) ∧
  (∀ (f : Frozen) (shares : List ShareRec) (p : Product) (first count : Nat), 1 ≤ count →
    let held := fun (counts : DirClass → Bool) (recs : List ShareRec) (t : Nat) =>
      recs.filter fun r => counts r.cls && (decide (r.first ≤ t) && decide (t ≤ r.last))
    let within := fun t => first ≤ t ∧ t < first + count
    (∀ i,
      let u := frozenUnit f i
      let mine := shares.filter fun r => r.unit == i
      let power := fun (counts : DirClass → Bool) (energy rated t : Nat) =>
        min ((energy - ((held counts mine t).map fun r =>
            r.power * enduranceOf f.endurance (productOfClass r.cls) / 3600).sum) * 3600 / enduranceOf f.endurance p)
          (rated - powerSum (held counts mine t)) * u.confidence / 1000 / 10 * 10
      let up := power countsUp ((u.soc - u.floor) * u.energy / 1000 * u.eta / 1000) u.pd
      let down := power countsDown ((u.ceiling - u.soc) * u.energy / 1000) u.pc
      let raw := fun t => match p with
        | .rsu => up t
        | .rsd => down t
        | .fsr => min (up t) (down t)
      let offered := fun t =>
        if u.contributing = false ∨ 16 ≤ mine.length ∨ raw t < f.minShare then 0 else raw t
      let range := rangeOfferable f shares p first count i
      (∀ t, within t → range ≤ offered t) ∧ ∃ t, within t ∧ range = offered t) ∧
    (∀ g,
      let limits := tableGet { exportKw := 0, importKw := 0 } f.feeders g
      let left := fun (counts : DirClass → Bool) (kw t : Nat) =>
        kw * 1000 - powerSum ((held counts shares t).filter fun r => (frozenUnit f r.unit).feeder == g)
      let raw := fun t => match p with
        | .rsu => left countsUp limits.exportKw t
        | .rsd => left countsDown limits.importKw t
        | .fsr => min (left countsUp limits.exportKw t) (left countsDown limits.importKw t)
      let room := rangeRoom f shares p first count g
      (∀ t, within t → room ≤ raw t) ∧ ∃ t, within t ∧ room = raw t) ∧
    rawHeadroom f p first count = ((List.range 64).map fun g =>
      min ((f.units.filter fun q => q.2.feeder == g).map fun q =>
          rangeOfferable f f.shares p first count q.1).sum
        (rangeRoom f f.shares p first count g)).sum) ∧
  ∀ (s : State) (k i g : Nat) (x : Setting) (limits : FeederLimits),
    let span := fun u => channelOfUnit u == k
    ((channelOf s k).state ≠ .stopped → Disturbs s (stopChannel s k) span) ∧
    Disturbs s (disengageChannel s k) span ∧ Disturbs s (faultChannel k s) span ∧
    Disturbs s (contributionLost i s) (fun u => u == i) ∧ Disturbs s (applySetting i x s) (fun u => u == i) ∧
    Disturbs s (writeFeeder g limits s) (fun u => (unitOf s u).feeder == g &&
      (decide (limits.exportKw < (feederOf s g).exportKw) || decide (limits.importKw < (feederOf s g).importKw)))

/-- A replan's completion is checked against the entry as it stands: a free number, another trade reference
or a terminal entry writes nothing; a boundary or an AWARD taken meanwhile writes nothing and sets the flag;
else the records, the uncovered W, the change list and the start index take the job's results, and a
disturbed job sets the flag (R87, R88, R99, R115, R116). The records written, in order: those removed whole leave,
cut ones end at t and reduced ones take their power, each continuation takes the next lowest free number and stands
right after the record it continues, enlargements raise the records they name, and the walk's new records take the
numbers that follow and are written as an OFFER's are (R104, R116). -/
def Obligations.ReplanCompletes : Prop :=
  (∀ (n : Nat) (r x : ShareRec) (before after : List ShareRec),
    (∀ y ∈ before, ¬(y.num = n ∧ y.entry = r.entry)) →
    (x.num = n → x.entry = r.entry → joinAfter n r (before ++ x :: after) = before ++ x :: r :: after) ∧
    joinAfter n r before = before) ∧
  (∀ (t number : Nat) (e : Entry) (p : Plan) (rs : List ShareRec),
    let cls : DirClass := match e.product with
      | .fsr => .symmetric
      | .rsu => .up
      | .rsd => .down
    let kept := (rs.filter fun r => r.num ∉ p.removed).map fun r =>
      if r.num ∈ p.cut then { r with last := t }
      else match p.reduced.find? fun q => q.1 == r.num with
        | none => r
        | some q => { r with power := q.2 }
    let numbers := freeNumbers kept (p.continuations.length + p.fresh.length)
    let continued := (p.continuations.zip numbers).foldl (fun rs q => joinAfter q.1.after
      { num := q.2, entry := number, unit := q.1.unit, cls := cls, power := q.1.power,
        first := q.1.first, last := q.1.last } rs) kept
    let named := fun (g : Enlargement) =>
      if g.target < 32768 then g.target
      else (numbers.take p.continuations.length).getD (g.target - 32768) g.target
    let raised := continued.map fun r => match p.enlarged.find? fun g => named g == r.num with
      | none => r
      | some g => { r with power := r.power + g.add }
    replanRecords t number e p rs = writeNew
      ((numbers.drop p.continuations.length).zip (p.fresh.map fun q =>
        { num := 0, entry := number, unit := q.1, cls := cls, power := q.2,
          first := max (t + 1) e.first, last := e.first + e.count - 1 })) raised) ∧
  ∀ (s : State) (j : Job) (n : Nat) (e : Entry), s.resetHeld = false → s.eval.job = some j →
    j.kind = .replan n e →
    let dropped : State := { s with eval := { s.eval with job := none } }
    let marked : State := { s with eval := { s.eval with job := none, replans := setInsert s.eval.replans n } }
    (entryOf s n = none → exec .replanComplete s = .next (settle dropped)) ∧
    ∀ now, entryOf s n = some now →
      (now.ref ≠ e.ref ∨ nonTerminal now.state = false →
        exec .replanComplete s = .next (settle dropped)) ∧
      (now.ref = e.ref → nonTerminal now.state = true → j.boundaryTaken = true ∨ j.awardTaken = true →
        exec .replanComplete s = .next (settle marked)) ∧
      (now.ref = e.ref → nonTerminal now.state = true → j.boundaryTaken = false → j.awardTaken = false →
        j.plan.works = false →
        exec .replanComplete s = .next (settle (if j.disturbed then marked else dropped))) ∧
      (now.ref = e.ref → nonTerminal now.state = true → j.boundaryTaken = false → j.awardTaken = false →
        j.plan.works = true →
        let uncovered := j.plan.target - j.plan.placed
        let entries := tableInsert s.book.entries n { now with uncovered := uncovered }
        ∃ T, exec .replanComplete s = .next (settle T) ∧
          { T with book := s.book, shares := s.shares, eval := s.eval, links := s.links } = s ∧
          NoticesOnly s T ∧ T.shares = replanRecords j.frozen.slot n e j.plan s.shares ∧
          T.eval = { s.eval with
            job := none
            start := (match j.plan.lastUnit with
              | none => s.eval.start
              | some i => (i + 1) % 4096)
            replans := if j.disturbed then setInsert s.eval.replans n else s.eval.replans } ∧
          (uncovered = 0 → now.uncovered = 0 →
            T.book = { s.book with entries := entries } ∧ T.links = s.links) ∧
          (uncovered ≠ 0 ∨ now.uncovered ≠ 0 →
            T.book = placeMember n false { s.book with entries := entries } ∧
              T.links.tl.notices.entry = true))

/-- A TL job's completion answers the TL request in process. A QUOTE answers what the frozen copy gives. An
OFFER whose walk is refused answers its code with the backing placed and the quantity it supports; one that
books a quantity is refused TOO_LATE past its gate, and else becomes the OFFERED entry of the lowest free
number with its records written (R57, R62, R89, R96, R99, R108). An OFFER books what it asked for when the walk placed
its whole target, else the kW that the placed backing supports when that is 1 at least and the exact flag is clear,
else it is refused, POOL_FULL when the pool stopped the walk and INSUFFICIENT otherwise (R100, R101). The records are those planned, trimmed to the
backing target of the booked quantity when the walk placed less than its target; they take the lowest free numbers
in the order planned, and join the end of their entry's list (R100, R102, R104; the one list of records: log 18). -/
def Obligations.TlJobCompletes : Prop :=
  (∀ (rs : List ShareRec) (k : Nat),
    let numbers := freeNumbers rs k
    let used := rs.map ShareRec.num
    numbers.Pairwise (· < ·) ∧ (∀ n ∈ numbers, n < 32768 ∧ n ∉ used ∧ ∀ m < n, m ∈ numbers ∨ m ∈ used) ∧
      numbers.length ≤ k ∧ (k + rs.length ≤ 32768 → numbers.length = k)) ∧
  (∀ (new : List (Nat × ShareRec)) (rs : List ShareRec),
    let written := new.map fun p => { p.2 with num := p.1 }
    (writeNew new rs).Perm (rs ++ written) ∧
      (rs.Pairwise (fun a b => a.entry ≤ b.entry) →
        (writeNew new rs).Pairwise (fun a b => a.entry ≤ b.entry) ∧
        ∀ n, entryRecords (writeNew new rs) n = entryRecords rs n ++ entryRecords written n)) ∧
  (∀ (j : Job) (o : OfferReq) (number booked : Nat),
    let planned : List ShareRec := j.plan.fresh.map fun q =>
      { num := 0, entry := number, unit := q.1, power := q.2, first := o.first, last := o.first + o.count - 1
        cls := match o.product with
          | .fsr => .symmetric
          | .rsu => .up
          | .rsd => .down }
    offerRecords j o number booked =
      if j.plan.placed = j.plan.target then planned
      else trimRecords j.frozen.minShare (backingTarget booked j.frozen.holdback) planned) ∧
  (∀ (j : Job) (o : OfferReq),
    let supported := j.plan.placed * (1000 - j.frozen.holdback) / 1000000
    (j.plan.placed = j.plan.target → offerOutcome j o = .ok o.quantity) ∧
    (j.plan.placed ≠ j.plan.target → 1 ≤ supported → o.exact = false → offerOutcome j o = .ok supported) ∧
    (j.plan.placed ≠ j.plan.target → supported = 0 ∨ o.exact = true → j.plan.poolStopped = false →
      offerOutcome j o = .error .insufficient) ∧
    (j.plan.placed ≠ j.plan.target → supported = 0 ∨ o.exact = true → j.plan.poolStopped = true →
      offerOutcome j o = .error .poolFull)) ∧
  ∀ (s : State) (j : Job) (p : InProcess), s.resetHeld = false → s.eval.job = some j →
    (linkOf s .tl).inProcess = some p →
    let free := fun (t : State) => { t with eval := { t.eval with job := none } }
    (∀ q, j.kind = .quote q →
      let raw := rawHeadroom j.frozen q.product q.first q.count
      exec .tlJobComplete s = .next (settle (free (oweAnswer .tl p.tag .done
        (putU 1 (productCode q.product) ++ putU 4 q.first ++ putU 1 q.count ++ putU 4 j.frozen.slot ++
          putU 1 j.frozen.holdback ++ putU 4 raw ++
          putU 2 (min 65535 (raw * (1000 - j.frozen.holdback) / 1000000))) true s)))) ∧
    ∀ o, j.kind = .offer o →
      (∀ code, offerOutcome j o = .error code →
        exec .tlJobComplete s = .next (settle (free (oweAnswer .tl p.tag code
          (putU 4 j.plan.placed ++
            putU 2 (j.plan.placed * (1000 - j.frozen.holdback) / 1000000)) true s)))) ∧
      (∀ booked, offerOutcome j o = .ok booked → o.first ≤ s.time.slot + s.time.gate →
        exec .tlJobComplete s = .next (settle (free (oweAnswer .tl p.tag .tooLate [] true s)))) ∧
      (∀ booked n, offerOutcome j o = .ok booked → s.time.slot + s.time.gate < o.first →
        n < 1024 → entryOf s n = none → (∀ k < n, (entryOf s k).isSome = true) →
        let e : Entry :=
          { ref := o.ref, product := o.product, first := o.first, count := o.count, offered := booked,
            awarded := none, state := .offered, uncovered := 0 }
        let new := offerRecords j o n booked
        ∃ T, exec .tlJobComplete s = .next (settle (oweAnswer .tl p.tag .done
            (putU 2 n ++ putU 4 o.ref ++ putU 2 booked ++ putU 1 1) true T)) ∧
          { T with eval := s.eval } = setShares
            (writeNew ((freeNumbers s.shares new.length).zip new) s.shares) (setEntry n e s) ∧
          T.eval = { s.eval with
            job := none
            start := (match j.plan.lastUnit with
              | none => s.eval.start
              | some i => (i + 1) % 4096)
            replans := if j.disturbed then setInsert s.eval.replans n else s.eval.replans })

/-- What a job plans. The backing target is the least multiple of 10 W that yields the quantity once the holdback
is taken off (R97). A walk visits the units listed once each, from the start index up and then from 0; at each it
places the least of the range offerable, the remaining target and the group's remaining room, in whole 10 W, if
that is q at least: as an enlargement of the entry's record there when that has the walk's range, as a new record
where the entry has none in it, and not at all beside one of another range; it stops when no free number is left
for a new record (R98, R101). An OFFER's walk places no more than its target, and what the OFFER books is never
above what it asked for, and with the exact flag is all of it (R100). A replan works on its entry's records that
reach slot n, the later of the next slot and the entry's first: it plans nothing past the last slot; it cuts or
removes those on units that do not contribute; it relieves each over-committed other by the least reduction that
suffices, in place, with a continuation, or by giving up the record; what it takes off and the uncovered W make its
target, which it walks on the copy so left (R111 to R115; the free numbers it counts: log 14; a record's endurance
is that of the product of its class, log 26; units in rising order, log 17). -/
def Obligations.OfferNeverBooksAboveItsQuantity : Prop :=
  (∀ quantity h, h < 1000 →
    let b := backingTarget quantity h
    b % 10 = 0 ∧ quantity * 1000000 ≤ b * (1000 - h) ∧
      (∀ k, k % 10 = 0 → quantity * 1000000 ≤ k * (1000 - h) → b ≤ k) ∧
      (h = 0 → b = quantity * 1000)) ∧
  (∀ f : Frozen, Ascending f.units → (∀ p ∈ f.units, p.1 < 4096) → f.start < 4096 →
    (walkOrder f).Perm (f.units.map Prod.fst) ∧
    (walkOrder f).Pairwise fun a b => (a + 4096 - f.start) % 4096 < (b + 4096 - f.start) % 4096) ∧
  (∀ (f : Frozen) (shares : List ShareRec) (k : WalkTask) (target : Nat),
    walk f shares k target = (walkOrder f).foldl (walkUnit f shares k)
      { remaining := target, used := [], fresh := [], enlarged := [], lastUnit := none, stopped := false }) ∧
  (∀ (f : Frozen) (shares : List ShareRec) (k : WalkTask) (w : Walk) (i : Nat), 1 ≤ k.count →
    let v := walkUnit f shares k w i
    let g := (frozenUnit f i).feeder
    let last := k.first + k.count - 1
    let mine := shares.filter fun r =>
      some r.entry = k.entry ∧ r.unit = i ∧ r.first ≤ last ∧ k.first ≤ r.last
    let p := min (rangeOfferable f shares k.product k.first k.count i)
      (min w.remaining (rangeRoom f shares k.product k.first k.count g - tableGet 0 w.used g)) / 10 * 10
    let places := w.remaining ≠ 0 ∧ w.stopped = false ∧ (∀ r ∈ mine, r.first = k.first ∧ r.last = last) ∧
      f.minShare ≤ p ∧ p ≠ 0
    let placed := v.remaining = w.remaining - p ∧ v.lastUnit = some i ∧ v.stopped = false ∧
      (Ascending w.used → Ascending v.used ∧
        ∀ j, tableGet 0 v.used j = tableGet 0 w.used j + if j = g then p else 0)
    (¬places → v = w) ∧
    (places → mine = [] → k.free ≤ w.fresh.length → v = { w with stopped := true }) ∧
    (places → mine = [] → w.fresh.length < k.free →
      placed ∧ v.fresh = w.fresh ++ [(i, p)] ∧ v.enlarged = w.enlarged) ∧
    ∀ r rest, places → mine = r :: rest →
      placed ∧ v.fresh = w.fresh ∧ v.enlarged = w.enlarged ++ [{ target := r.num, unit := i, add := p }]) ∧
  (∀ (f : Frozen) (o : OfferReq), f.holdback < 1000 →
    let plan := planOffer f o
    let w := walk f f.shares
      { product := o.product, first := o.first, count := o.count, free := f.free, entry := none }
      plan.target
    plan.target = backingTarget o.quantity f.holdback ∧
    plan.fresh = w.fresh ∧ plan.placed = plan.target - w.remaining ∧ plan.poolStopped = w.stopped ∧
    plan.lastUnit = w.lastUnit ∧
    plan.enlarged = [] ∧ (plan.fresh.map Prod.snd).sum = plan.placed ∧ plan.placed ≤ plan.target ∧
    plan.fresh.length ≤ f.free ∧
    (∀ q ∈ plan.fresh, f.minShare ≤ q.2 ∧ q.2 % 10 = 0 ∧ (frozenUnit f q.1).contributing = true) ∧
    ∀ (j : Job) (booked : Nat), j.plan = plan → j.frozen = f → offerOutcome j o = .ok booked →
      booked ≤ o.quantity ∧ (o.exact = true → booked = o.quantity)) ∧
  (∀ (f : Frozen) (shares : List ShareRec) (n : Nat) (r : ShareRec),
    let held := fun (counts : DirClass → Bool) (d t : Nat) =>
      ((shares.filter fun x => x.unit == r.unit).map fun x =>
        if x.num = r.num then { x with power := x.power - d } else x).filter fun x =>
          counts x.cls && (decide (x.first ≤ t) && decide (t ≤ x.last))
    let short := fun (counts : DirClass → Bool) (energy rated d t : Nat) => counts r.cls = true ∧
      (energy < ((held counts d t).map fun x =>
          x.power * enduranceOf f.endurance (productOfClass x.cls) / 3600).sum ∨
        rated < powerSum (held counts d t))
    let u := frozenUnit f r.unit
    let burdened := fun (d : Nat) => ∃ t, n ≤ t ∧ r.first ≤ t ∧ t ≤ r.last ∧
      (short countsUp ((u.soc - u.floor) * u.energy / 1000 * u.eta / 1000) u.pd d t ∨
        short countsDown ((u.ceiling - u.soc) * u.energy / 1000) u.pc d t)
    let least := reliefOf f shares n r
    least ≤ r.power ∧ (least < r.power → least % 10 = 0 ∧ ¬burdened least) ∧
      ∀ d, d < least → d % 10 = 0 → burdened d) ∧
  ∀ (f : Frozen) (number : Nat) (e : Entry),
    let p := planReplan f number e
    let n := max (f.slot + 1) e.first
    let reaching := f.shares.filter fun r => r.entry == number && decide (n ≤ r.last)
    let contributes := fun (i : Nat) => (frozenUnit f i).contributing = true
    (lastSlot e < n → p = Plan.nothing) ∧
    (n ≤ lastSlot e → p.works = true ∧
      (∀ k ∈ p.cut, ∃ r ∈ reaching, r.num = k ∧ r.first ≤ f.slot) ∧
      (∀ k ∈ p.removed, ∃ r ∈ reaching, r.num = k ∧ f.slot < r.first) ∧
      (∀ q ∈ p.reduced, ∃ r ∈ reaching, r.num = q.1 ∧ f.slot < r.first ∧ contributes r.unit ∧
        f.minShare ≤ q.2 ∧ q.2 < r.power) ∧
      (∀ c ∈ p.continuations, ∃ r ∈ reaching, r.num = c.after ∧ r.num ∈ p.cut ∧ contributes r.unit ∧
        c.unit = r.unit ∧ c.first = n ∧ c.last = r.last ∧ f.minShare ≤ c.power ∧ c.power < r.power) ∧
      (∀ r ∈ reaching, ¬contributes r.unit →
        (r.first ≤ f.slot → r.num ∈ p.cut) ∧ (f.slot < r.first → r.num ∈ p.removed)) ∧
      ((f.shares.map ShareRec.num).Nodup →
        let kept := fun (r : ShareRec) =>
          if r.num ∈ p.removed then 0
          else if r.num ∈ p.cut then
            (match p.continuations.find? fun c => c.after == r.num with
              | none => 0
              | some c => c.power)
          else match p.reduced.find? fun q => q.1 == r.num with
            | none => r.power
            | some q => q.2
        p.target + (reaching.map kept).sum = e.uncovered + powerSum reaching ∧
        ((reaching.map ShareRec.unit).Nodup → ∀ r ∈ reaching, contributes r.unit →
          let d := reliefOf f f.shares n r
          (d = 0 → r.num ∉ p.cut ∧ r.num ∉ p.removed ∧ kept r = r.power) ∧
          (d ≠ 0 → r.first ≤ f.slot → r.num ∈ p.cut) ∧
          (d ≠ 0 → f.slot < r.first → r.power - d < f.minShare → r.num ∈ p.removed) ∧
          (d ≠ 0 → r.power - d < f.minShare → kept r = 0) ∧
          (d ≠ 0 → f.minShare ≤ r.power - d → f.slot < r.first → kept r = r.power - d) ∧
          (d ≠ 0 → f.minShare ≤ r.power - d → r.first ≤ f.slot → reaching.length ≤ f.free →
            (f.shares.filter fun x => x.unit == r.unit).length < 16 → kept r = r.power - d))) ∧
      p.placed ≤ p.target ∧
      p.placed = (p.fresh.map Prod.snd).sum + (p.enlarged.map Enlargement.add).sum ∧
      p.continuations.length + p.fresh.length ≤ f.free ∧
      (∀ q ∈ p.fresh, f.minShare ≤ q.2 ∧ q.2 % 10 = 0 ∧ contributes q.1) ∧
      (∀ g ∈ p.enlarged, f.minShare ≤ g.add ∧ g.add % 10 = 0 ∧ contributes g.unit) ∧
      (p.target = 0 → p.fresh = [] ∧ p.enlarged = [] ∧ p.lastUnit = none) ∧
      (p.target ≠ 0 → (f.shares.map ShareRec.num).Nodup → (∀ r ∈ f.shares, r.num < 32768) →
        let changed := fun (r : ShareRec) =>
          if r.num ∈ p.cut then { r with last := f.slot }
          else match p.reduced.find? fun q => q.1 == r.num with
            | none => r
            | some q => { r with power := q.2 }
        let continued := p.continuations.mapIdx fun k c => f.shares.filterMap fun r =>
          if r.num = c.after then
            some { r with num := 32768 + k, power := c.power, first := c.first, last := c.last }
          else none
        ∃ copy : List ShareRec,
          copy.Perm (((f.shares.filter fun r => r.num ∉ p.removed).map changed) ++ continued.flatten) ∧
          let task : WalkTask :=
            { product := e.product, first := n, count := lastSlot e + 1 - n
              free := f.free - p.continuations.length, entry := some number }
          let w := walk f copy task p.target
          p.fresh = w.fresh ∧ p.enlarged = w.enlarged ∧ p.placed = p.target - w.remaining ∧
            p.poolStopped = w.stopped ∧ p.lastUnit = w.lastUnit))

/-! ### The Dispatcher -/

/-- DEADBAND queries the deadband or sets it to at most 50 mHz; OVERRIDE puts a kind in force while none is,
HALT asking for HALT and the re-arming ARM on every IDLING or RUNNING channel; CLEAR ends it; both raise
OVERRIDE towards every link (R53, R125, R129, R130). -/
def Obligations.OverrideIsExclusive : Prop :=
  ∀ (tag : Byte) (c : List Byte) (s : State), CanTake s .gl →
    let h := frameComplete .gl s
    let v := readU c 1 1
    let raised := fun (t : State) =>
      raiseOn .fb .override (raiseOn .fa .override (raiseOn .gl .override (raiseOn .tl .override t)))
    (c.length = 2 → readBit c 0 0 = false → exec (.deadband .gl tag c) s = .next (settle
      (answered .deadband .gl tag .done (putU 1 s.disp.deadband) h))) ∧
    (c.length = 2 → readBit c 0 0 = true → 50 < v →
      exec (.deadband .gl tag c) s = .next (settle (answered .deadband .gl tag .badRange [] h))) ∧
    (c.length = 2 → readBit c 0 0 = true → v ≤ 50 → exec (.deadband .gl tag c) s = .next (settle
      (answered .deadband .gl tag .done (putU 1 v) { h with disp := { s.disp with deadband := v } }))) ∧
    (c.length = 1 → overrideOf (readU c 0 1) = none →
      exec (.override .gl tag c) s = .next (settle (answered .override .gl tag .badRequest [] h))) ∧
    (c.length = 1 → overrideOf (readU c 0 1) ≠ none → s.disp.override ≠ .none →
      exec (.override .gl tag c) s = .next (settle (answered .override .gl tag .overrideActive [] h))) ∧
    (c.length = 1 → overrideOf (readU c 0 1) = some .fullUp → s.disp.override = .none →
      exec (.override .gl tag c) s = .next (settle (answered .override .gl tag .done (putU 1 2)
        (raised { h with disp := { s.disp with override := .fullUp } })))) ∧
    (c.length = 1 → overrideOf (readU c 0 1) = some .halt → s.disp.override = .none →
      ∃ T, exec (.override .gl tag c) s =
          .next (settle (answered .override .gl tag .done (putU 1 1) T)) ∧
        { T with ctl := s.ctl } = raised { h with disp := { s.disp with override := .halt } } ∧
        { T.ctl with channels := s.ctl.channels } = s.ctl ∧
        ∀ k, channelOf T k =
          if k < 8 ∧ ((channelOf s k).state = .idling ∨ (channelOf s k).state = .running) then
            { channelOf s k with haltPending := true, armPending := true }
          else channelOf s k) ∧
    (c.length = 0 → s.disp.override = .none →
      exec (.clear .gl tag c) s = .next (settle (answered .clear .gl tag .wrongState [] h))) ∧
    (c.length = 0 → s.disp.override ≠ .none →
      exec (.clear .gl tag c) s = .next (settle (answered .clear .gl tag .done []
        (raised { h with disp := { s.disp with override := .none } }))))

/-- A telegram on GL is judged and taken whether or not a request is in process, and leaves the request in
process as it is: a wrong length or, without the keep-alive flag, an unknown product is refused; else the
quantity it names is stored, the silence timer runs afresh, a silence ends, and the telegram answer is owed
(R126, R169). That a refused telegram's answer too takes the place of a telegram answer still owed is the model's
choice (log 36). -/
def Obligations.TelegramIsTakenAtOnce : Prop :=
  ∀ (tag : Byte) (c : List Byte) (s : State), s.resetHeld = false →
    let h := frameComplete .gl s
    let keep := readBit c 0 0
    let p := readU c 1 1
    let r := readU c 2 2
    let u := if keep = false ∧ p = 2 then r else s.disp.requestedU
    let d := if keep = false ∧ p = 3 then r else s.disp.requestedD
    let T : State := { h with disp := { s.disp with
      requestedU := u, requestedD := d, silenceTimer := some 10000, silent := false } }
    (c.length ≠ 4 → exec (.activate .gl tag c) s = .next (settle (oweTelegram tag .badRequest [] h))) ∧
    (c.length = 4 → keep = false → p ≠ 2 → p ≠ 3 →
      exec (.activate .gl tag c) s = .next (settle (oweTelegram tag .badRequest [] h))) ∧
    (c.length = 4 → keep = true ∨ p = 2 ∨ p = 3 →
      exec (.activate .gl tag c) s = .next (settle (oweTelegram tag .done
        (putU 2 u ++ putU 2 d ++ putU 1 0 ++ putU 1 (overrideCode s.disp.override))
        (if s.disp.silent then raiseTlGl .operatorSilent T else T)))) ∧
    ∀ t, exec (.activate .gl tag c) s = .next t → (linkOf t .gl).inProcess = (linkOf s .gl).inProcess

/-- The five bytes of a sample frame that find the receiver hunting: a frame whose check matches and whose
deviation lies in −5000 to +5000 mHz becomes the held sample, restarts the watch and ends a loss; any other
changes nothing, and SAMPLE_BYTE_TIMEOUT discards what has been received. The watch's and the silence
timer's expiries lose the sample and the requested quantities; a timer that does not run changes nothing
(R122, R123, R127, R179; log 3). -/
def Obligations.SamplesAreHeldOrLost : Prop :=
  (∀ (a b k m : Byte) (s : State), s.resetHeld = false → s.disp.receiver = .hunting →
    let d := readS [a, b] 0 2
    let good := readU [k, m] 0 2 = (crc16 [a, b]).toNat ∧ -5000 ≤ d ∧ d ≤ 5000
    let T : State := { s with disp := { s.disp with
      sample := some d, frequencyWatch := some 1000, freqLost := false } }
    (good → exec (.frequencySample [0x96#8, a, b, k, m]) s = .next (settle
      (if s.disp.freqLost then raiseTlGl .freqLost T else T))) ∧
    (¬good → exec (.frequencySample [0x96#8, a, b, k, m]) s = .next (settle s))) ∧
  ∀ s : State, s.resetHeld = false →
    exec .sampleByteTimeout s = .next (settle { s with disp := { s.disp with receiver := .hunting } }) ∧
    (s.disp.frequencyWatch.isSome = true → exec .frequencyWatchExpiry s = .next (settle
      (raiseTlGl .freqLost { s with disp := { s.disp with
        sample := none, frequencyWatch := none, freqLost := true } }))) ∧
    (s.disp.frequencyWatch = none → exec .frequencyWatchExpiry s = .next (settle s)) ∧
    (s.disp.silenceTimer.isSome = true → exec .silenceTimerExpiry s = .next (settle
      (raiseTlGl .operatorSilent { s with disp := { s.disp with
        requestedU := 0, requestedD := 0, silent := true, silenceTimer := none } }))) ∧
    (s.disp.silenceTimer = none → exec .silenceTimerExpiry s = .next (settle s))

/-- The fractions and excess flags formed at a round beginning, whatever its method, and the method itself
(R124, R128, R131). -/
def Obligations.FractionsFollowTheInputs : Prop :=
  ∀ s : State,
    let f := formFigures s
    let total := fun (p : Product) =>
      ((s.book.entries.filter fun q => q.2.state == .active && q.2.product == p).map fun q =>
        q.2.awarded.getD 0).sum
    (s.disp.sample = none → f.aF = 0) ∧
    (∀ d, s.disp.sample = some d → d.natAbs ≤ s.disp.deadband → f.aF = 0) ∧
    (∀ d, s.disp.sample = some d → s.disp.deadband < d.natAbs → f.aF = max (-1000) (min 1000 (-5 * d))) ∧
    f.awardedU = total .rsu ∧ f.awardedD = total .rsd ∧
    f.aU = (if total .rsu = 0 then 0 else min 1000 (s.disp.requestedU * 1000 / total .rsu) : Nat) ∧
    f.aD = (if total .rsd = 0 then 0 else min 1000 (s.disp.requestedD * 1000 / total .rsd) : Nat) ∧
    f.excessU = decide (total .rsu < s.disp.requestedU) ∧
    f.excessD = decide (total .rsd < s.disp.requestedD) ∧
    (-1000 ≤ f.aF ∧ f.aF ≤ 1000 ∧ 0 ≤ f.aU ∧ f.aU ≤ 1000 ∧ 0 ≤ f.aD ∧ f.aD ≤ 1000) ∧
    f.method =
      (if s.time.timeSet = false then .zeroUnset
       else match s.disp.override with
         | .halt => .zeroHalt
         | .fullUp => .fullUp
         | .none => .normal)

/-- Pass 1 for one unit. Its pairs are one share truncate(p × a / 1000) for each record of an ACTIVE entry that
covers the current slot, in the order of its per-unit list. A unit that is not live carries nothing and orphans its
shares; one within its bounds carries them all; one beyond a bound scales the shares of that sign by τ and orphans
the rest; no pair carried as 0 is listed, the duty list sums to the setpoint, which no bound is exceeded by and
which falls short of one by fewer watts than there are pairs, and what is carried and what is orphaned make the raw
demand (R132 to R134). Pass 2 adds to each live unit its spare, or its proportional part of the orphan, rounded
toward zero: no unit passes its bound, a unit that is not live keeps its own, the powers added are the orphan less
the shortfall, and each orphaned entry's part of the added power raises its pair or is appended in the entries'
order (R135 to R137). -/
def Obligations.TheTwoPassesHoldToTheBounds : Prop :=
  (∀ (s : State) (fraction : Product → Int) (i : Nat),
    let u := firstPass s fraction i
    let pairs := unitPairs s fraction i
    let raw := pairSum pairs
    let upper : Int := if (unitOf s i).floor < (unitOf s i).soc then (unitOf s i).pd else 0
    let lower : Int := if (unitOf s i).soc < (unitOf s i).ceiling then -((unitOf s i).pc : Int) else 0
    let carriedBy := fun (carried : List (Nat × Int)) =>
      u.setpoint = pairSum carried ∧ u.duty = carried.filter (fun q => q.2 ≠ 0) ∧
        u.orphan = List.zipWith (fun p q => (p.1, p.2 - q.2)) pairs carried
    (unitRecords s.shares i).Perm (s.shares.filter fun r => r.unit == i) ∧
    (unitRecords s.shares i).Pairwise (fun a b => a.first < b.first ∨ (a.first = b.first ∧ a.num ≤ b.num)) ∧
    pairs = ((unitRecords s.shares i).filterMap fun r => match entryOf s r.entry with
      | none => none
      | some e =>
        if e.state = .active ∧ r.first ≤ s.time.slot ∧ s.time.slot ≤ r.last then
          some (r.entry, Int.tdiv (r.power * fraction e.product) 1000)
        else none) ∧
    (u.unit = i ∧ u.feeder = (unitOf s i).feeder ∧ u.live = contributing s i ∧
      u.upper = (if contributing s i then upper else 0) ∧ u.lower = if contributing s i then lower else 0) ∧
    (contributing s i = false → u.setpoint = 0 ∧ u.duty = [] ∧ u.orphan = pairs) ∧
    (contributing s i = true → lower ≤ raw → raw ≤ upper →
      u.setpoint = raw ∧ u.duty = pairs ∧ u.orphan = []) ∧
    (contributing s i = true → upper < raw →
      let total := ((pairs.map Prod.snd).map fun c => max 0 c).sum
      carriedBy (pairs.map fun q =>
        if 0 < q.2 then (q.1, Int.tdiv (q.2 * (total - (raw - upper))) total) else q) ∧
      u.setpoint ≤ upper ∧ upper < u.setpoint + pairs.length ∧ pairSum u.duty = u.setpoint) ∧
    (contributing s i = true → raw < lower →
      let total := ((pairs.map Prod.snd).map fun c => max 0 (-c)).sum
      carriedBy (pairs.map fun q =>
        if q.2 < 0 then (q.1, Int.tdiv (q.2 * (total - (lower - raw))) total) else q) ∧
      lower ≤ u.setpoint ∧ u.setpoint < lower + pairs.length ∧ pairSum u.duty = u.setpoint) ∧
    pairSum u.duty + pairSum u.orphan = raw) ∧
  ∀ (orphan : Int) (orphans : List (Nat × Int)) (us : List UnitShare),
    let vs := secondPass orphans orphan us
    let spare := fun (u : UnitShare) =>
      if u.live = false then 0
      else if 0 < orphan then max 0 (u.upper - u.setpoint) else min 0 (u.lower - u.setpoint)
    let total := (us.map spare).sum
    let power := fun (u : UnitShare) =>
      if orphan = 0 then 0
      else if total.natAbs ≤ orphan.natAbs then spare u
      else if 0 < orphan then Int.fdiv (orphan * spare u) total
      else -Int.fdiv (-orphan * -spare u) (-total)
    let added := (vs.map UnitShare.setpoint).sum - (us.map UnitShare.setpoint).sum
    vs.length = us.length ∧
    (∀ k (hu : k < us.length) (hv : k < vs.length),
      { vs[k] with setpoint := us[k].setpoint, duty := us[k].duty } = us[k] ∧
      vs[k].setpoint = us[k].setpoint + power us[k] ∧
      (us[k].live = false → vs[k].setpoint = us[k].setpoint) ∧
      (0 < orphan → us[k].setpoint ≤ vs[k].setpoint ∧ vs[k].setpoint ≤ max us[k].setpoint us[k].upper) ∧
      (orphan < 0 → vs[k].setpoint ≤ us[k].setpoint ∧ min us[k].setpoint us[k].lower ≤ vs[k].setpoint) ∧
      (orphan ≠ 0 → (orphans.map Prod.fst).Pairwise (· < ·) →
        let part := fun (o : Int) => Int.tdiv (power us[k] * o) orphan
        vs[k].duty = (us[k].duty.map fun q => (q.1, q.2 + part (tableGet 0 orphans q.1))) ++
          ((orphans.filter fun p => part p.2 ≠ 0 ∧ p.1 ∉ us[k].duty.map Prod.fst).map fun p =>
            (p.1, part p.2)))) ∧
    (orphan = 0 → vs = us ∧ shortfallOf orphan us = 0) ∧
    (0 < orphan → added = orphan - shortfallOf orphan us) ∧
    (orphan < 0 → added = orphan + shortfallOf orphan us) ∧
    0 ≤ shortfallOf orphan us

/-- In every round, the positive setpoints sent to the units of a feeder group sum to at most its export
limit and the negative ones to at most its import limit; only live units are sent power, in multiples of
10 W, and none while time is unset or HALT is in force; under full up none is sent charge, more than its
rated power, or power at or below its floor (R6, R131, R138 to R140). The round figures (R141): the zero method
leaves them empty; full up clamps and quantises each live unit's upper bound and has no orphan; the normal method
sums each entry's orphan parts over pass 1 of every unit in play, places their sum by pass 2, and clamps and
quantises the result. The clamp scales the setpoints of a sign in a group above its limit and their duty lists, its
totals are the power it removed, and a setpoint is truncated toward zero to 10 W (R138, R139). Tables as in
log 17. -/
def Obligations.SetpointsHoldTheFeederLimits : Prop :=
  ∀ s : State,
    let f := formFigures s
    let live := (s.fleet.units.map Prod.fst).filter (contributing s)
    let formed := FormedFrom s f
    (∀ g, (((f.setpoints.filter fun p => (unitOf s p.1).feeder == g).map fun p => max 0 p.2).sum : Int) ≤
      (feederOf s g).exportKw * 1000) ∧
    (∀ g, (((f.setpoints.filter fun p => (unitOf s p.1).feeder == g).map fun p => max 0 (-p.2)).sum : Int) ≤
      (feederOf s g).importKw * 1000) ∧
    (∀ p ∈ f.setpoints,
      s.time.timeSet = true ∧ s.disp.override ≠ .halt ∧ contributing s p.1 = true ∧ p.2 % 10 = 0 ∧
      (s.disp.override = .fullUp →
        0 < p.2 ∧ p.2 ≤ (unitOf s p.1).pd ∧ (unitOf s p.1).floor < (unitOf s p.1).soc)) ∧
    f.liveUnits = live.length ∧
    (f.method ≠ .normal → f.orphans = [] ∧ f.orphan = 0 ∧ f.shortfall = 0 ∧ f.duties = []) ∧
    (f.method = .zeroUnset ∨ f.method = .zeroHalt → formed []) ∧
    (f.method = .fullUp → ∃ us : List UnitShare, formed us ∧ us.map UnitShare.unit = live ∧
      ∀ u ∈ us, u.feeder = (unitOf s u.unit).feeder ∧ u.duty = [] ∧
        u.setpoint = if (unitOf s u.unit).floor < (unitOf s u.unit).soc then (unitOf s u.unit).pd else 0) ∧
    (f.method = .normal →
      let fraction := fun (p : Product) => match p with
        | .fsr => f.aF
        | .rsu => f.aU
        | .rsd => -f.aD
      let first := (unitsInPlay s).map (firstPass s fraction)
      formed (secondPass f.orphans f.orphan first) ∧
      (f.orphans.map Prod.fst).Pairwise (· < ·) ∧ (∀ p ∈ f.orphans, p.2 ≠ 0) ∧
      (∀ e, tableGet 0 f.orphans e =
        (((first.flatMap UnitShare.orphan).filter fun p => p.1 == e).map Prod.snd).sum) ∧
      f.orphan = (f.orphans.map Prod.snd).sum ∧ f.shortfall = shortfallOf f.orphan first) ∧
    (TablesCanonical s → (unitsInPlay s).Pairwise (· < ·) ∧
      ∀ i, i ∈ unitsInPlay s ↔ unitOf s i ≠ UnitRec.reset ∨ ∃ r ∈ s.shares, r.unit = i)

/-! ### The Delivery Tracker -/

/-- At the boundary into slot t every ACTIVE entry has a fresh accumulator tagged t, every accumulator of
slot t − 1 is closed, and it is held when the round in flight began in slot t − 1; a held accumulator of
another entry stays. A completion credits each entry of the roll with its awarded quantity times its
fraction times the exchange period, to the accumulator of the round's slot, and counts nothing for an entry
without one (R144, R146, R148, R149). -/
def Obligations.AccountsFollowSlotsAndRounds : Prop :=
  (∀ s : State, TablesCanonical s →
    let t := s.time.slot
    let b := slotBoundary s
    let open_ := fun n => ∃ e, entryOf b n = some e ∧ e.state = .active
    (∀ n, open_ n → tableFind b.track.current n = some
      { slot := t, requestedUp := 0, requestedDown := 0, deliveredUp := 0, deliveredDown := 0,
        shortfallRounds := 0, overrideMark := false }) ∧
    (∀ n, ¬open_ n → ∀ a, tableFind b.track.current n = some a ↔
      tableFind s.track.current n = some a ∧ a.slot + 1 ≠ t) ∧
    (∀ n a, s.ctl.round.isSome = true → (s.track.roll.map Roll.slot) = some a.slot →
      tableFind s.track.current n = some a → a.slot + 1 = t → tableFind b.track.held n = some a) ∧
    (∀ n, (∀ a, tableFind s.track.current n = some a → a.slot + 1 ≠ t) →
      tableFind b.track.held n = tableFind s.track.held n) ∧
    (s.ctl.round = none → b.track.held = s.track.held)) ∧
  ∀ (roll : Roll) (f : RoundFigures) (k : Tracker) (e : RollEntry) (a : Accumulator),
    (roll.entries.map RollEntry.entry).Nodup → e ∈ roll.entries →
    let out := creditRequested roll f k
    let fraction : Int := match e.product with
      | .fsr => f.aF
      | .rsu => f.aU
      | .rsd => -f.aD
    let energy : Int := e.awarded * fraction * roll.period
    let credited := { a with
      requestedUp := a.requestedUp + (max 0 energy).toNat
      requestedDown := a.requestedDown + (max 0 (-energy)).toNat }
    (tableFind k.held e.entry = some a → a.slot = roll.slot →
      tableFind out.held e.entry = some credited ∧
        tableFind out.current e.entry = tableFind k.current e.entry) ∧
    ((∀ b, tableFind k.held e.entry = some b → b.slot ≠ roll.slot) →
      tableFind k.current e.entry = some a → a.slot = roll.slot →
      tableFind out.current e.entry = some credited ∧
        tableFind out.held e.entry = tableFind k.held e.entry) ∧
    ((∀ b, tableFind k.held e.entry = some b → b.slot ≠ roll.slot) →
      (∀ b, tableFind k.current e.entry = some b → b.slot ≠ roll.slot) →
      tableFind out.current e.entry = tableFind k.current e.entry ∧
        tableFind out.held e.entry = tableFind k.held e.entry)

/-- TAKE is refused EMPTY on an empty queue, and else removes the oldest delivery record and answers it with
the number left (R152). The record's 32 bytes are its entry number, trade reference, product, slot, awarded kW,
the four energies, the shortfall rounds and its flags (11, Read-out forms). -/
def Obligations.TakeRemovesTheOldestRecord : Prop :=
  (∀ (tag : Byte) (c : List Byte) (s : State), CanTake s .tl → c.length = 0 →
    let h := frameComplete .tl s
    (s.track.queue = [] → exec (.take .tl tag c) s = .next (settle (answered .take .tl tag .empty [] h))) ∧
    ∀ r rest, s.track.queue = r :: rest →
      exec (.take .tl tag c) s = .next (settle
        (answered .take .tl tag .done (deliveryForm r ++ putU 2 rest.length)
          { h with track := { s.track with queue := rest } }))) ∧
  ∀ r : DeliveryRecord,
    let bit := fun b : Bool => if b then 1 else 0
    (deliveryForm r).length = 32 ∧
    deliveryForm r =
      [(2, r.entry), (4, r.ref), (1, match r.product with
          | .fsr => 1
          | .rsu => 2
          | .rsd => 3), (4, r.slot), (2, r.awarded), (4, r.requestedUp), (4, r.requestedDown),
        (4, r.deliveredUp), (4, r.deliveredDown), (2, r.shortfallRounds),
        (1, bit r.released + 2 * bit r.override + 4 * bit r.gapBefore)].flatMap fun p => putU p.1 p.2

/-! ### The Margin Monitor -/

/-- MARGIN answers the figures with the line as it stood and releases a LATCHED line; LINE_MODE queries the
mode, or stores it and sets the line at once on a change (R156, R158). The margin form's 31 bytes hold each
direction's obligation, deliverable, ratio and state, the overall state, WARN, SHORT, H, the lock, the mode and the
line (11, Read-out forms). -/
def Obligations.MarginIsReadAndItsLineSet : Prop :=
  (∀ (l : Link) (tag : Byte) (c : List Byte) (s : State), CanTake s l →
    let h := frameComplete l s
    let m := s.margin
    let after := fun (m : MarginMonitor) =>
      putU 1 (lineModeCode m.mode) ++ putU 1 (if m.asserted then 1 else 0)
    let stored := fun (m : MarginMonitor) => { h with margin := m }
    (l = .tl ∨ l = .gl → c.length = 0 → m.mode = .level → exec (.margin l tag c) s = .next (settle
      (answered .margin l tag .done (marginForm m) h))) ∧
    (l = .tl ∨ l = .gl → c.length = 0 → m.mode = .latched → exec (.margin l tag c) s = .next (settle
      (answered .margin l tag .done (marginForm m) (stored { m with asserted := false })))) ∧
    (l = .gl → c.length = 1 →
      let v := readU c 0 1
      let m' : MarginMonitor :=
        if v = 1 ∧ m.mode = .latched then
          { m with mode := .level, asserted := decide (m.overall = .thin ∨ m.overall = .short) }
        else if v = 2 ∧ m.mode = .level then { m with mode := .latched, asserted := false }
        else m
      (2 < v → exec (.lineMode l tag c) s = .next (settle (answered .lineMode l tag .badRequest [] h))) ∧
      (v ≤ 2 → exec (.lineMode l tag c) s = .next (settle
        (answered .lineMode l tag .done (after m') (stored m')))))) ∧
  ∀ m : MarginMonitor,
    let state := fun (x : MarginState) => putU 1 (match x with
      | .sound => 0
      | .thin => 1
      | .short => 2)
    let direction := fun (d : MarginDir) =>
      putS 4 d.obligation ++ putS 4 d.deliverable ++ putU 2 d.ratio ++ state d.state
    (marginForm m).length = 31 ∧
    lineModeCode m.mode = (match m.mode with
      | .level => 1
      | .latched => 2) ∧
    marginForm m = direction m.up ++ direction m.down ++ state m.overall ++ putU 2 m.warn ++ putU 2 m.short ++
      putU 1 m.hysteresis ++ putU 1 (if m.lock then 1 else 0) ++ putU 1 (lineModeCode m.mode) ++
      putU 1 (if m.asserted then 1 else 0)

/-- THRESHOLDS: the range checks, the SHORT lock, and the values stored with SHORT clamped to WARN, or WARN
raised to a locked SHORT. LOCK_SHORT sets the lock, and no command but RESET clears it (R157). That LOCK_SHORT
answers with the bytes that THRESHOLDS answers with is the model's choice (log 11). -/
def Obligations.ThresholdsClampAndLock : Prop :=
  (∀ (tag : Byte) (c : List Byte) (s : State), CanTake s .gl →
    let h := frameComplete .gl s
    let m := s.margin
    let change := readBit c 0 0
    let warn := readU c 1 2
    let short := readU c 3 2
    let hyst := readU c 5 1
    let form := fun (m : MarginMonitor) =>
      putU 2 m.warn ++ putU 2 m.short ++ putU 1 m.hysteresis ++ putU 1 (if m.lock then 1 else 0)
    let bad := ¬(warn = 0 ∨ (1000 ≤ warn ∧ warn ≤ 2000)) ∨ ¬(short = 0 ∨ (800 ≤ short ∧ short ≤ 1500)) ∨
      (change = true ∧ hyst ≠ 0 ∧ hyst ≠ 10 ∧ hyst ≠ 25 ∧ hyst ≠ 50)
    let locked := m.lock = true ∧ short ≠ 0 ∧ short ≠ m.short
    let w := if warn = 0 then m.warn else warn
    let t := if short = 0 then m.short else short
    let m' : MarginMonitor := { m with
      warn := if m.lock then max w t else w
      short := if m.lock then t else min w t
      hysteresis := if change then hyst else m.hysteresis }
    (c.length = 6 → bad →
      exec (.thresholds .gl tag c) s = .next (settle (answered .thresholds .gl tag .badRange [] h))) ∧
    (c.length = 6 → ¬bad → locked →
      exec (.thresholds .gl tag c) s = .next (settle (answered .thresholds .gl tag .locked [] h))) ∧
    (c.length = 6 → ¬bad → ¬locked → exec (.thresholds .gl tag c) s = .next (settle
      (answered .thresholds .gl tag .done (form m') { h with margin := m' }))) ∧
    (c.length = 0 → exec (.lockShort .gl tag c) s = .next (settle
      (answered .lockShort .gl tag .done (form { m with lock := true })
        { h with margin := { m with lock := true } })))) ∧
  ∀ (i : Instr) (s t : State), i ≠ .reset → s.margin.lock = true → exec i s = .next t →
    t.margin.lock = true

/-! ### Owner settings and unit maps -/

/-- SET on a fleet link: a unit outside the map is refused DENIED, an unknown field BAD_REQUEST; a setting
merges with the queue entry of its unit and field where there is one, is applied at once on a unit that
holds no share record, and else joins the queue's end, or is refused QUEUE_FULL (R160). -/
def Obligations.SettingIsAppliedMergedOrQueued : Prop :=
  ∀ (l : Link) (tag : Byte) (c : List Byte) (s : State) (m : UnitMap), CanTake s l → mapOf s l = some m →
    c.length = 5 →
    let h := frameComplete l s
    let i := readU c 0 2
    let form := fun (t : State) (outcome position : Nat) =>
      putU 1 outcome ++ putU 1 position ++ putU 1 t.queue.length ++ putU 2 (unitOf t i).floor ++
        putU 2 (unitOf t i).ceiling ++ putFlags [(unitOf t i).excluded]
    (permitted m i = false →
      exec (.set l tag c) s = .next (settle (oweAnswer l tag .denied [] false h))) ∧
    (permitted m i = true → settingOf (readU c 2 1) (readU c 3 2) = none →
      exec (.set l tag c) s = .next (settle (answered .set l tag .badRequest [] h))) ∧
    ∀ x, permitted m i = true → settingOf (readU c 2 1) (readU c 3 2) = some x →
      let held := ∃ r ∈ s.shares, r.unit = i
      let same := fun (q : QueuedSetting) => q.unit = i ∧ sameField q.setting x = true
      (∀ before q after, s.queue = before ++ q :: after → same q → (∀ k ∈ before ++ after, ¬same k) →
        let T : State := { h with queue := before ++ { origin := l, unit := i, setting := x } :: after }
        exec (.set l tag c) s = .next (settle
          (answered .set l tag .done (form T 3 (before.length + 1)) T))) ∧
      ((∀ k ∈ s.queue, ¬same k) → ¬held →
        let T := applySetting i x h
        exec (.set l tag c) s = .next (settle (answered .set l tag .done (form T 1 0) T))) ∧
      ((∀ k ∈ s.queue, ¬same k) → held → s.queue.length < 32 →
        let T : State := { h with queue := s.queue ++ [{ origin := l, unit := i, setting := x }] }
        exec (.set l tag c) s = .next (settle
          (answered .set l tag .done (form T 2 (s.queue.length + 1)) T))) ∧
      ((∀ k ∈ s.queue, ¬same k) → held → 32 ≤ s.queue.length →
        exec (.set l tag c) s = .next (settle (answered .set l tag .queueFull [] h)))

/-- A value applied to a unit: FLOOR and CEILING are clamped and coupled, EXCLUDED is stored, an EMPTY unit
and every other unit keep their records, and a change of exclusion that changes contribution marks the
entries of its event (R20, R21, R161, R162). A unit excluded while not contributing owes its event, until it raises
it or its flag is cleared (log 35). -/
def Obligations.OwnerLimitsAreCoupled : Prop :=
  ∀ (i : Nat) (s : State), TablesCanonical s →
    let u := unitOf s i
    (∀ x, u.state = .empty → ∀ k, unitOf (applySetting i x s) k = unitOf s k) ∧
    (∀ x k, k ≠ i → unitOf (applySetting i x s) k = unitOf s k) ∧
    (∀ v, u.state ≠ .empty →
      let f := min v 900
      unitOf (applySetting i (.floor v) s) i =
        { u with floor := f, ceiling := if u.ceiling < f + 100 then f + 100 else u.ceiling }) ∧
    (∀ v, u.state ≠ .empty →
      let k := max 100 (min v 1000)
      unitOf (applySetting i (.ceiling v) s) i =
        { u with ceiling := k, floor := if k - 100 < u.floor then k - 100 else u.floor }) ∧
    (∀ b, u.state ≠ .empty → unitOf (applySetting i (.excluded b) s) i =
      if b = u.excluded then u else { u with excluded := b, owesEvent := b && !contributing s i }) ∧
    (∀ x, LimitsHold u → LimitsHold (unitOf (applySetting i x s) i)) ∧
    (contributing s i = true →
      NewlyMarked s (applySetting i (.excluded true) s) (fun n _ => ∃ r ∈ s.shares, r.entry = n ∧ r.unit = i)) ∧
    (contributing s i = false → u.state = .ready → (channelOf s (channelOfUnit i)).state = .running →
      NewlyMarked s (applySetting i (.excluded false) s) (fun _ e => e.uncovered ≠ 0)) ∧
    ∀ x, (unitOf (applySetting i x s) i).excluded = u.excluded →
      (applySetting i x s).eval.replans = s.eval.replans

/-- MAP: its checks in order, and an accepted one gives the selected map its new limit, drops the marks at
and above it, gives the span its mark value, and leaves the other map as it is (R171, R173). -/
def Obligations.MapWritesOneMap : Prop :=
  ∀ (tag : Byte) (c : List Byte) (s : State), CanTake s .tl → c.length = 8 →
    let h := frameComplete .tl s
    let limit := readU c 2 2
    let first := readU c 4 2
    let count := readU c 6 2
    let v := readBit c 1 1
    let form := fun (m : UnitMap) =>
      putU 2 m.limit ++ putU 2 ((List.range 4096).filter fun i => m.marks.getLsbD i).length
    (selectorOf (readU c 0 1) = none →
      exec (.map .tl tag c) s = .next (settle (answered .map .tl tag .badRequest [] h))) ∧
    ∀ l m o, selectorOf (readU c 0 1) = some l → mapOf s l = some m → mapOf s (otherFleet l) = some o →
      let bad := 4096 < limit ∨ (0 < count ∧ limit < first + count)
      let overlap := v = true ∧ ∃ k < count, permitted o (first + k) = true
      (readBit c 1 0 = true →
        exec (.map .tl tag c) s = .next (settle (answered .map .tl tag .done (form m) h))) ∧
      (readBit c 1 0 = false → bad →
        exec (.map .tl tag c) s = .next (settle (answered .map .tl tag .badRange [] h))) ∧
      (readBit c 1 0 = false → ¬bad → overlap →
        exec (.map .tl tag c) s = .next (settle (answered .map .tl tag .overlap [] h))) ∧
      (readBit c 1 0 = false → ¬bad → ¬overlap →
        ∃ m', exec (.map .tl tag c) s = .next (settle (answered .map .tl tag .done (form m') (setMap l m' h))) ∧
          m'.limit = limit ∧
          ∀ i, m'.marks.getLsbD i =
            if first ≤ i ∧ i < first + count then v else (decide (i < limit) && m.marks.getLsbD i))

/-! ### Master links -/

/-- A received frame is judged in order: one that finds a request in process is answered BUSY with its tag
alone, unless it is a telegram on GL; an unknown code, a code of another class, contents of a wrong length,
an empty channel mask, a UNITS span out of bounds, and a unit outside the map are each answered at once
with their code, and change nothing else (R167, R168, R172). The class table, and each request's code and length (R167, R178). A frame
that carries a request's code is that request, whichever command brings it. The model's choice: a refused frame's
answer waits
with the link's other answers (log 8), a BUSY answer whose tag is replaced keeps its time status (log 9), and
BUSY is the arrival of a frame of any code (log 23). -/
def Obligations.ReceivedFramesAreJudgedInOrder : Prop :=
  (∀ (l : Link) (code tag : Byte) (c : List Byte) (s : State), s.resetHeld = false →
    (linkOf s l).inProcess.isSome = true → ¬(code = 0x15#8 ∧ l = .gl) →
    exec (.busy l code tag c) s = .next (settle (oweBusy l tag (frameComplete l s)))) ∧
  (∀ (q : Request) (l : Link) (tag : Byte) (c : List Byte) (s : State),
    exec (.busy l (requestCode q) tag c) s = exec (commandOf q l tag c) s ∧
    exec (.unknownRequestCode l (requestCode q) tag c) s = exec (commandOf q l tag c) s) ∧
  ((∀ q c, requestOf c = some q ↔ requestCode q = c) ∧
    (∀ q, ∃ p ∈ requestTable, p.1 = q) ∧ ∀ p ∈ requestTable,
      requestCode p.1 = p.2.1 ∧ contentsLength p.1 = p.2.2.1 ∧ ∀ k, allowed p.1 k = true ↔ k ∈ p.2.2.2) ∧
  (classOf .tl = .market ∧ classOf .gl = .operator ∧ classOf .fa = .fleet ∧ classOf .fb = .fleet) ∧
  (∀ (l : Link) (tag : Byte) (s : State),
    linkOf (oweBusy l tag s) l = { linkOf s l with busy := some (match (linkOf s l).busy with
      | none => { tag := tag, code := .busy, time := timeStatus s, result := [] }
      | some a => { a with tag := tag }) } ∧
    { oweBusy l tag s with links := s.links } = s ∧ ∀ k, k ≠ l → linkOf (oweBusy l tag s) k = linkOf s k) ∧
  (∀ (l : Link) (code tag : Byte) (c : List Byte) (s : State), CanTake s l → requestOf code = none →
    exec (.unknownRequestCode l code tag c) s = .next (settle
      (oweAnswer l tag .badRequest [] false (frameComplete l s)))) ∧
  (∀ (q : Request) (l : Link) (tag : Byte) (c : List Byte) (s : State), CanTake s l →
    ¬(q = .activate ∧ l = .gl) →
    let h := frameComplete l s
    let channels := q = .start ∨ q = .stop ∨ q = .engage ∨ q = .disengage
    let refused := fun code =>
      exec (commandOf q l tag c) s = .next (settle (oweAnswer l tag code [] false h))
    (allowed q (classOf l) = false → refused .denied) ∧
    (allowed q (classOf l) = true → c.length ≠ contentsLength q → refused .badRequest) ∧
    (allowed q (classOf l) = true → c.length = contentsLength q → channels →
      (∀ k < 8, (readU c 0 1).testBit k = false) → refused .badRequest) ∧
    (allowed q (classOf l) = true → c.length = contentsLength q → q = .units →
      readU c 2 1 = 0 ∨ 64 < readU c 2 1 ∨ 4095 < readU c 0 2 + readU c 2 1 - 1 → refused .badRange) ∧
    ∀ m, mapOf s l = some m → allowed q (classOf l) = true → c.length = contentsLength q →
      (channels → (∃ k < 8, (readU c 0 1).testBit k = true ∧ ∃ d < 512, permitted m (512 * k + d) = false) →
        refused .denied) ∧
      (q = .units → 1 ≤ readU c 2 1 → readU c 2 1 ≤ 64 → readU c 0 2 + readU c 2 1 ≤ 4096 →
        (∃ k < readU c 2 1, permitted m (readU c 0 2 + k) = false) → refused .denied)) ∧
  ∀ (q : Request) (l : Link) (c : List Byte) (s t : State) (code : AnswerCode) (result : List Byte),
    takeOf q l c s = (t, .answer code result) → code ≠ .done → t = s ∧ result = []

/-- A frame sent by the layout of R177 (start byte, length, code, tag, contents, and the check over all but the start
byte, whose value for the characters 1 to 9 is 0x29B1) is read back: the receiver that hunts takes its bytes to the
end and gives its code, tag and contents, once and at the last byte; and on a link the characters of such a frame
are the received frame of R167 (that DISCARDED_FRAME carries characters of any kind and BUSY is a frame of any
code is the model's choice, log 23). -/
def Obligations.MasterFramesAreReadBack : Prop :=
  crc16 [0x31#8, 0x32#8, 0x33#8, 0x34#8, 0x35#8, 0x36#8, 0x37#8, 0x38#8, 0x39#8] = 0x29B1#16 ∧
  (∀ (code tag : Byte) (c : List Byte),
    let covered := putU 2 (c.length + 2) ++ code :: tag :: c
    masterFrame code tag c = 0xC3#8 :: covered ++ putU 2 (crc16 covered).toNat) ∧
  ∀ (code tag : Byte) (c : List Byte), c.length ≤ 30 →
    let wire := (masterFrame code tag c).map RxChar.ok
    let feed := fun (p : Receiver × List (Byte × Byte × List Byte)) ch =>
      ((receiveChar p.1 ch).1, p.2 ++ (receiveChar p.1 ch).2.toList)
    wire.length = c.length + 7 ∧
    wire.foldl feed (.hunting, []) = (.hunting, [(code, tag, c)]) ∧
    (∀ k < c.length + 7, ((wire.take k).foldl feed (.hunting, [])).2 = []) ∧
    ∀ (l : Link) (s : State), (linkOf s l).receiver = .hunting →
      exec (.discardedFrame l wire) s = exec (.busy l code tag c) s

/-- Characters that complete no good frame change nothing but the receiver: outside a frame every character
but a start byte is dropped; a framing error, a declared length outside 2 to 32, a failed check and the
intercharacter timeout discard the frame and leave the receiver HUNTING (R166, R177). -/
def Obligations.DiscardedFramesChangeNothing : Prop :=
  (∀ (l : Link) (chars : List RxChar) (s : State), s.resetHeld = false →
    let feed := fun (p : Receiver × Bool) ch =>
      ((receiveChar p.1 ch).1, p.2 || (receiveChar p.1 ch).2.isSome)
    let out := chars.foldl feed ((linkOf s l).receiver, false)
    out.2 = false →
    exec (.discardedFrame l chars) s = .next (settle (setLink l { linkOf s l with receiver := out.1 } s))) ∧
  (∀ (l : Link) (s : State), s.resetHeld = false →
    exec (.intercharacterTimeout l) s = .next (settle
      (setLink l { linkOf s l with receiver := .hunting } s))) ∧
  (∀ b : Byte, b ≠ 0xC3#8 → receiveChar .hunting (.ok b) = (.hunting, none)) ∧
  (∀ r, receiveChar r .bad = (.hunting, none)) ∧
  (∀ a b : Byte, readU [a, b] 0 2 < 2 ∨ 32 < readU [a, b] 0 2 →
    receiveChar (.receiving [a]) (.ok b) = (.hunting, none)) ∧
  ∀ (got : List Byte) (b : Byte),
    let all := got ++ [b]
    let len := readU all 0 2
    2 ≤ len → len ≤ 32 → all.length = len + 4 →
    readU all (len + 2) 2 ≠ (crc16 (all.take (len + 2))).toNat →
    receiveChar (.receiving got) (.ok b) = (.hunting, none)

/-- FRAME_SENT frees the transmitter, and the end of an answer to the request in process ends that request;
a FREE transmitter sends the first that waits of the telegram answer, the owed answers, the BUSY answer and
the notices in their kind order; a notice's flag is cleared and its contents formed then (R167, R170,
R175). The bytes of an answer and of a notice of each kind (R177; 11, Notice contents): an answer is owed with the time
status of the moment it is formed. The model's choice: refused frames' answers wait in the same order as answers to requests, each marked
whether its end ends the request in process (log 8), and a BUSY or telegram answer is owed until its sending
begins (log 9). -/
def Obligations.TransmitterServesInOrder : Prop :=
  (∀ a : Answer,
    let bit := fun b : Bool => if b then 1 else 0
    answerWire a = masterFrame 0x80#8 a.tag
      (([(1, match a.code with
          | .done => 0 | .busy => 1 | .denied => 2 | .badRequest => 3 | .badRange => 4 | .bookFull => 5
          | .duplicateRef => 6 | .noEntry => 7 | .wrongState => 8 | .noTime => 9 | .tooLate => 10 | .locked => 11
          | .recordsHeld => 12 | .overlap => 13 | .overrideActive => 14 | .queueFull => 15 | .empty => 16
          | .insufficient => 17 | .poolFull => 18),
        (1, bit a.time.timeSet + 2 * bit a.time.holdover), (4, a.time.slot), (2, a.time.second)].flatMap fun p =>
          putU p.1 p.2) ++ a.result)) ∧
  (∀ (l : Link) (tag : Byte) (code : AnswerCode) (result : List Byte) (ends : Bool) (s : State),
    let status : TimeStatus :=
      { timeSet := s.time.timeSet, holdover := s.time.holdover, slot := s.time.slot, second := s.time.second }
    let formed : Answer := { tag := tag, code := code, time := status, result := result }
    oweAnswer l tag code result ends s = setLink l
      { linkOf s l with answers := (linkOf s l).answers ++ [{ answer := formed, ends := ends }] } s) ∧
  (∀ s : State,
    let bit := fun b : Bool => if b then 1 else 0
    let fields := fun fs : List (Nat × Nat) => fs.flatMap fun p => putU p.1 p.2
    noticeContents s .entry = fields [(1, s.book.changes.length), (1, bit s.book.more)] ++
      s.book.changes.flatMap (fun m => fields [(2, m.entry), (1, bit m.causeState + 2 * bit m.causeCover)]) ∧
    noticeContents s .margin = marginForm s.margin ∧
    channelsForm s = (channelsForm s).take 6 ++ noticeContents s .channel ∧
    noticeContents s .freqLost =
      fields [(1, bit s.disp.freqLost), (1, bit s.disp.sample.isSome)] ++ putS 2 (s.disp.sample.getD 0) ∧
    noticeContents s .operatorSilent =
      fields [(2, s.disp.requestedU), (2, s.disp.requestedD), (1, bit s.disp.silent)] ∧
    noticeContents s .timeMark = [] ∧ noticeContents s .records = putU 2 s.track.queue.length ∧
    noticeContents s .override = putU 1 (match s.disp.override with
      | .none => 0
      | .halt => 1
      | .fullUp => 2)) ∧
  ∀ (l : Link) (s : State),
    let r := linkOf s l
    (∀ wire, s.resetHeld = false → r.tx = .sending (.answer true) wire →
      exec (.frameSent l) s = .next (settle (setLink l { r with tx := .free, inProcess := none } s))) ∧
    (∀ kind wire, s.resetHeld = false → r.tx = .sending kind wire → kind ≠ .answer true →
      exec (.frameSent l) s = .next (settle (setLink l { r with tx := .free } s))) ∧
    (r.tx ≠ .free → kickTx l s = s) ∧
    (∀ a, r.tx = .free → r.telegram = some a →
      kickTx l s = setLink l { r with telegram := none, tx := .sending .telegram (answerWire a) } s) ∧
    (∀ o rest, r.tx = .free → r.telegram = none → r.answers = o :: rest →
      kickTx l s = setLink l { r with
        answers := rest, tx := .sending (.answer o.ends) (answerWire o.answer) } s) ∧
    (∀ a, r.tx = .free → r.telegram = none → r.answers = [] → r.busy = some a →
      kickTx l s = setLink l { r with busy := none, tx := .sending .busy (answerWire a) } s) ∧
    (∀ before k after, r.tx = .free → r.telegram = none → r.answers = [] → r.busy = none →
      [NoticeKind.entry, .margin, .channel, .freqLost, .operatorSilent, .timeMark, .records, .override] =
        before ++ k :: after →
      (∀ b ∈ before, noticeGet r.notices b = false) → noticeGet r.notices k = true →
      let sent := setLink l { r with
        notices := noticeSet r.notices k false
        tx := .sending (.notice k) (masterFrame 0x81#8 0#8
          (putU 1 (before.length + 1) ++ putU 1 ((if s.time.timeSet then 1 else 0) + if s.time.holdover then 2 else 0) ++
            putU 4 s.time.slot ++ putU 2 s.time.second ++ noticeContents s k)) } s
      kickTx l s = if k = .entry then
          { sent with book := { s.book with changes := [], more := false } } else sent) ∧
    (r.tx = .free → r.telegram = none → r.answers = [] → r.busy = none →
      (∀ k, noticeGet r.notices k = false) → kickTx l s = s)

/-- A FREE channel line takes the first frame that waits: a pending HALT, a pending ARM, a pending EXCHANGE,
else the frame of a discovery in progress, with the ARM's watchdog period of max(4 × period, 400) ms (R32,
R35 to R37, R180). -/
def Obligations.FreeLineTakesItsNextFrame : Prop :=
  ∀ (k : Nat) (s : State),
    let r := channelOf s k
    let arm := channelWire 0x01#8 (putU 2 (max (4 * s.ctl.period) 400))
    (r.line ≠ .free → kickLine s k = s) ∧
    (r.line = .free → r.haltPending = true → kickLine s k = setChannel k { r with
      haltPending := false, line := .sending .halt .nobody (channelWire 0x05#8 []) } s) ∧
    (r.line = .free → r.haltPending = false → r.armPending = true → kickLine s k = setChannel k { r with
      armPending := false, line := .sending .arm .rearm arm } s) ∧
    (r.line = .free → r.haltPending = false → r.armPending = false → r.exchangePending = true →
      kickLine s k = setChannel k { r with
        exchangePending := false
        line := .sending .exchange .round (channelWire 0x04#8 (exchangeContents s k)) } s) ∧
    (∀ d, r.line = .free → r.haltPending = false → r.armPending = false → r.exchangePending = false →
      r.state = .starting → r.discovery = some d →
      let drop := r.roster.getD d.position 0
      kickLine s k = setChannel k { r with line := (match d.step with
        | .arm => .sending .arm .discovery arm
        | .roster => .sending .roster .discovery (channelWire 0x02#8 [])
        | .catalogue => .sending (.catalogue drop d.page) .discovery
            (channelWire 0x03#8 (putU 2 drop ++ putU 1 d.page))) } s) ∧
    (r.haltPending = false → r.armPending = false → r.exchangePending = false → r.state ≠ .starting →
      kickLine s k = s)

/-- What the end of a step does, in its order: each free channel line takes what waits for it, the arbiter
decides, and the transmitters of TL, GL, FA and FB take what waits for them (R32, R84, R170; the moment and the
order are the model's choice, log 5). Only in the step of an expiry of the mark watch may its TIME_MARK notice on TL
or GL wait for the time mark that falls together with it, so that the link receives one notice for both (R3,
log 30). Nothing
else changes: a running job, a line and a transmitter that are not free keep what they have, and nothing else is
left waiting for one that is free. An EXCHANGE frame carries a setpoint field for each drop of the roster: the
width of the unit's SETPOINT record and the setpoint of the round on its scale, sign-filled, or width 0 for a
unit without a catalogue (R29, R45). Tables as in log 17. -/
def Obligations.SettleServesWhatWaits : Prop :=
  (∀ s : State, settle s = settleWith false s) ∧
  (∀ (s : State) (expiry : Bool), TablesCanonical s →
    let t := settleWith expiry s
    let awaits := fun (l : Link) (u : State) => expiry = true ∧ (l = .tl ∨ l = .gl) ∧ AwaitsItsMark l u
    { t with ctl := s.ctl, eval := s.eval, links := s.links, book := s.book } = s ∧
    { t.ctl with channels := s.ctl.channels } = s.ctl ∧
    (∀ k < 8, channelOf t k = channelOf (kickLine s k) k) ∧ (∀ k, 8 ≤ k → channelOf t k = channelOf s k) ∧
    t.eval = (arbitrate s).eval ∧
    (let served := fun (l : Link) (u v : State) =>
       (awaits l u → v = u) ∧ (¬awaits l u → v = kickTx l u)
     ∃ u v w, served .tl (arbitrate (kickLines s)) u ∧ served .gl u v ∧ served .fa v w ∧ served .fb w t) ∧
    (∀ k, channelOf t k = { channelOf s k with
      line := (channelOf t k).line
      haltPending := (channelOf t k).haltPending
      armPending := (channelOf t k).armPending
      exchangePending := (channelOf t k).exchangePending }) ∧
    (∀ k, (channelOf s k).line ≠ .free → channelOf t k = channelOf s k) ∧
    (∀ k < 8, (channelOf t k).line = .free →
      (channelOf t k).haltPending = false ∧ (channelOf t k).armPending = false ∧
        (channelOf t k).exchangePending = false) ∧
    { t.eval with job := s.eval.job, slot := s.eval.slot, replans := s.eval.replans,
                  runCount := s.eval.runCount } = s.eval ∧
    (s.eval.job.isSome = true → t.eval = s.eval) ∧
    (t.eval.job = none → t.eval.slot = none ∧ t.eval.replans = []) ∧
    (∀ n ∈ t.eval.replans, n ∈ s.eval.replans) ∧
    { t.book with changes := s.book.changes, more := s.book.more } = s.book ∧
    ((∀ l, (linkOf s l).notices.entry = false) → t.book = s.book) ∧
    t.links.mapA = s.links.mapA ∧ t.links.mapB = s.links.mapB ∧
    (∀ l, linkOf t l = { linkOf s l with
      answers := (linkOf t l).answers
      busy := (linkOf t l).busy
      telegram := (linkOf t l).telegram
      tx := (linkOf t l).tx
      notices := (linkOf t l).notices }) ∧
    (∀ l, (linkOf s l).tx ≠ .free → linkOf t l = linkOf s l) ∧
    ∀ l, (linkOf t l).tx = .free → (linkOf t l).telegram = none ∧ (linkOf t l).answers = [] ∧
      (linkOf t l).busy = none ∧ (awaits l t ∨ ∀ k, noticeGet (linkOf t l).notices k = false)) ∧
  ∀ (s : State) (k : Nat),
    exchangeContents s k = putU 2 (channelOf s k).roster.length ++ (channelOf s k).roster.flatMap fun drop =>
      let u := unitOf s (512 * k + drop)
      let setpoint : Int := match s.disp.figures with
        | none => 0
        | some f => tableGet 0 f.setpoints (512 * k + drop)
      match u.catalogue.find? fun d => d.kind == .setpoint with
      | none => putU 1 0
      | some d =>
        let top : Int := 2 ^ (d.width - 1) - 1
        let raw := max (-top) (min top (Int.tdiv (setpoint * top) d.max))
        let bytes := (d.width + 7) / 8
        putU 1 d.width ++ leBytes bytes (raw % 2 ^ (8 * bytes)).toNat

/-! ### Invariants that every step keeps -/

/-- Every step keeps the tables of the state in their one form, numbers rising and no record equal to the one an
unlisted number holds, and the replan-pending set rising. The form is the model's choice (log 17). -/
def Obligations.EveryStepKeepsTheTables : Prop :=
  ∀ s t : State, TablesCanonical s → step s = .next t → TablesCanonical t

/-- Every step keeps the settings, the time figures and the owners' limits in the ranges their rules give
(R1, R17, R43, R59, R90, R121, R153, R161), and only an excluded unit owes the event of its exclusion (log 35). -/
def Obligations.EveryStepKeepsTheRanges : Prop :=
  ∀ s t : State, SettingsInRange s → TimeInRange s → OwnerLimits s → step s = .next t →
    SettingsInRange t ∧ TimeInRange t ∧ OwnerLimits t

/-- Every step keeps awarded quantities within offered ones, the delivery record queue, the change list and
the Update Queue within their bounds, and the share records' numbers within the pool, no number twice (R63,
R75, R104, R151, R159). That the one list of share records stays grouped by entry number is the model's choice
(log 18). -/
def Obligations.EveryStepKeepsTheBounds : Prop :=
  ∀ s t : State, AwardsWithinOffers s → QueuesBounded s → SharesNumbered s → step s = .next t →
    AwardsWithinOffers t ∧ QueuesBounded t ∧ SharesNumbered t

/-- Every step keeps the two unit maps disjoint and each within its limit (R171, R173). -/
def Obligations.EveryStepKeepsTheMapsApart : Prop :=
  ∀ s t : State, MapsDisjoint s → step s = .next t → MapsDisjoint t

/-- Every step keeps each link to one request: exactly one answer is due while a request is in process, and
none otherwise (R81, R167, R168). -/
def Obligations.EveryStepKeepsOneRequest : Prop :=
  ∀ s t : State, OneRequestInProcess s → step s = .next t → OneRequestInProcess t

/-- Every step keeps a round in flight with a channel outstanding and a roll, no roll or held accumulator
between rounds, discovery progress in STARTING alone, and outstanding channels IDLING or RUNNING (R44, R50,
R51, R143, R149). -/
def Obligations.EveryStepKeepsTheRounds : Prop :=
  ∀ s t : State, TablesCanonical s → RoundOpen s → ChannelsConsistent s → step s = .next t →
    RoundOpen t ∧ ChannelsConsistent t

/-- Every step keeps the ratios within 9999, the overall state the worse of the two directions', and the
line of LEVEL mode asserted exactly outside SOUND (R153, R154, R156). -/
def Obligations.EveryStepKeepsTheMargin : Prop :=
  ∀ s t : State, MarginConsistent s → step s = .next t → MarginConsistent t
end

