-- ==== Sys2Proof/Laws/State.lean ====
section
/-! SUPPORT. One lemma for each field and each named update of State, so that later proofs unfold no record
update; and what a link's record is after a link's record is written. -/

namespace Sys2Proof.Machine

/-! ### setUnit -/

@[simp] theorem setUnit_time (i : Nat) (u : UnitRec) (s : State) : (setUnit i u s).time = s.time := rfl
@[simp] theorem setUnit_fleet_feeders (i : Nat) (u : UnitRec) (s : State) : (setUnit i u s).fleet.feeders = s.fleet.feeders := rfl
@[simp] theorem setUnit_fleet_lostLimit (i : Nat) (u : UnitRec) (s : State) : (setUnit i u s).fleet.lostLimit = s.fleet.lostLimit := rfl
@[simp] theorem setUnit_ctl (i : Nat) (u : UnitRec) (s : State) : (setUnit i u s).ctl = s.ctl := rfl
@[simp] theorem setUnit_book (i : Nat) (u : UnitRec) (s : State) : (setUnit i u s).book = s.book := rfl
@[simp] theorem setUnit_eval (i : Nat) (u : UnitRec) (s : State) : (setUnit i u s).eval = s.eval := rfl
@[simp] theorem setUnit_shares (i : Nat) (u : UnitRec) (s : State) : (setUnit i u s).shares = s.shares := rfl
@[simp] theorem setUnit_disp (i : Nat) (u : UnitRec) (s : State) : (setUnit i u s).disp = s.disp := rfl
@[simp] theorem setUnit_track (i : Nat) (u : UnitRec) (s : State) : (setUnit i u s).track = s.track := rfl
@[simp] theorem setUnit_margin (i : Nat) (u : UnitRec) (s : State) : (setUnit i u s).margin = s.margin := rfl
@[simp] theorem setUnit_queue (i : Nat) (u : UnitRec) (s : State) : (setUnit i u s).queue = s.queue := rfl
@[simp] theorem setUnit_links (i : Nat) (u : UnitRec) (s : State) : (setUnit i u s).links = s.links := rfl
@[simp] theorem setUnit_resetHeld (i : Nat) (u : UnitRec) (s : State) : (setUnit i u s).resetHeld = s.resetHeld := rfl
@[simp] theorem setUnit_freeTick (i : Nat) (u : UnitRec) (s : State) : (setUnit i u s).freeTick = s.freeTick := rfl
@[simp] theorem setUnit_pending (i : Nat) (u : UnitRec) (s : State) : (setUnit i u s).pending = s.pending := rfl

/-! ### setFeeder -/

@[simp] theorem setFeeder_time (g : Nat) (f : FeederLimits) (s : State) : (setFeeder g f s).time = s.time := rfl
@[simp] theorem setFeeder_fleet_units (g : Nat) (f : FeederLimits) (s : State) : (setFeeder g f s).fleet.units = s.fleet.units := rfl
@[simp] theorem setFeeder_fleet_lostLimit (g : Nat) (f : FeederLimits) (s : State) : (setFeeder g f s).fleet.lostLimit = s.fleet.lostLimit := rfl
@[simp] theorem setFeeder_ctl (g : Nat) (f : FeederLimits) (s : State) : (setFeeder g f s).ctl = s.ctl := rfl
@[simp] theorem setFeeder_book (g : Nat) (f : FeederLimits) (s : State) : (setFeeder g f s).book = s.book := rfl
@[simp] theorem setFeeder_eval (g : Nat) (f : FeederLimits) (s : State) : (setFeeder g f s).eval = s.eval := rfl
@[simp] theorem setFeeder_shares (g : Nat) (f : FeederLimits) (s : State) : (setFeeder g f s).shares = s.shares := rfl
@[simp] theorem setFeeder_disp (g : Nat) (f : FeederLimits) (s : State) : (setFeeder g f s).disp = s.disp := rfl
@[simp] theorem setFeeder_track (g : Nat) (f : FeederLimits) (s : State) : (setFeeder g f s).track = s.track := rfl
@[simp] theorem setFeeder_margin (g : Nat) (f : FeederLimits) (s : State) : (setFeeder g f s).margin = s.margin := rfl
@[simp] theorem setFeeder_queue (g : Nat) (f : FeederLimits) (s : State) : (setFeeder g f s).queue = s.queue := rfl
@[simp] theorem setFeeder_links (g : Nat) (f : FeederLimits) (s : State) : (setFeeder g f s).links = s.links := rfl
@[simp] theorem setFeeder_resetHeld (g : Nat) (f : FeederLimits) (s : State) : (setFeeder g f s).resetHeld = s.resetHeld := rfl
@[simp] theorem setFeeder_freeTick (g : Nat) (f : FeederLimits) (s : State) : (setFeeder g f s).freeTick = s.freeTick := rfl
@[simp] theorem setFeeder_pending (g : Nat) (f : FeederLimits) (s : State) : (setFeeder g f s).pending = s.pending := rfl

/-! ### setChannel -/

@[simp] theorem setChannel_time (c : Nat) (r : ChannelRec) (s : State) : (setChannel c r s).time = s.time := rfl
@[simp] theorem setChannel_fleet (c : Nat) (r : ChannelRec) (s : State) : (setChannel c r s).fleet = s.fleet := rfl
@[simp] theorem setChannel_ctl_period (c : Nat) (r : ChannelRec) (s : State) : (setChannel c r s).ctl.period = s.ctl.period := rfl
@[simp] theorem setChannel_ctl_replyTimeout (c : Nat) (r : ChannelRec) (s : State) : (setChannel c r s).ctl.replyTimeout = s.ctl.replyTimeout := rfl
@[simp] theorem setChannel_ctl_exchangeTimer (c : Nat) (r : ChannelRec) (s : State) : (setChannel c r s).ctl.exchangeTimer = s.ctl.exchangeTimer := rfl
@[simp] theorem setChannel_ctl_round (c : Nat) (r : ChannelRec) (s : State) : (setChannel c r s).ctl.round = s.ctl.round := rfl
@[simp] theorem setChannel_ctl_failedMask (c : Nat) (r : ChannelRec) (s : State) : (setChannel c r s).ctl.failedMask = s.ctl.failedMask := rfl
@[simp] theorem setChannel_ctl_overrun (c : Nat) (r : ChannelRec) (s : State) : (setChannel c r s).ctl.overrun = s.ctl.overrun := rfl
@[simp] theorem setChannel_book (c : Nat) (r : ChannelRec) (s : State) : (setChannel c r s).book = s.book := rfl
@[simp] theorem setChannel_eval (c : Nat) (r : ChannelRec) (s : State) : (setChannel c r s).eval = s.eval := rfl
@[simp] theorem setChannel_shares (c : Nat) (r : ChannelRec) (s : State) : (setChannel c r s).shares = s.shares := rfl
@[simp] theorem setChannel_disp (c : Nat) (r : ChannelRec) (s : State) : (setChannel c r s).disp = s.disp := rfl
@[simp] theorem setChannel_track (c : Nat) (r : ChannelRec) (s : State) : (setChannel c r s).track = s.track := rfl
@[simp] theorem setChannel_margin (c : Nat) (r : ChannelRec) (s : State) : (setChannel c r s).margin = s.margin := rfl
@[simp] theorem setChannel_queue (c : Nat) (r : ChannelRec) (s : State) : (setChannel c r s).queue = s.queue := rfl
@[simp] theorem setChannel_links (c : Nat) (r : ChannelRec) (s : State) : (setChannel c r s).links = s.links := rfl
@[simp] theorem setChannel_resetHeld (c : Nat) (r : ChannelRec) (s : State) : (setChannel c r s).resetHeld = s.resetHeld := rfl
@[simp] theorem setChannel_freeTick (c : Nat) (r : ChannelRec) (s : State) : (setChannel c r s).freeTick = s.freeTick := rfl
@[simp] theorem setChannel_pending (c : Nat) (r : ChannelRec) (s : State) : (setChannel c r s).pending = s.pending := rfl

/-! ### setEntry -/

@[simp] theorem setEntry_time (n : Nat) (e : Entry) (s : State) : (setEntry n e s).time = s.time := rfl
@[simp] theorem setEntry_fleet (n : Nat) (e : Entry) (s : State) : (setEntry n e s).fleet = s.fleet := rfl
@[simp] theorem setEntry_ctl (n : Nat) (e : Entry) (s : State) : (setEntry n e s).ctl = s.ctl := rfl
@[simp] theorem setEntry_book_changes (n : Nat) (e : Entry) (s : State) : (setEntry n e s).book.changes = s.book.changes := rfl
@[simp] theorem setEntry_book_more (n : Nat) (e : Entry) (s : State) : (setEntry n e s).book.more = s.book.more := rfl
@[simp] theorem setEntry_book_endurance (n : Nat) (e : Entry) (s : State) : (setEntry n e s).book.endurance = s.book.endurance := rfl
@[simp] theorem setEntry_eval (n : Nat) (e : Entry) (s : State) : (setEntry n e s).eval = s.eval := rfl
@[simp] theorem setEntry_shares (n : Nat) (e : Entry) (s : State) : (setEntry n e s).shares = s.shares := rfl
@[simp] theorem setEntry_disp (n : Nat) (e : Entry) (s : State) : (setEntry n e s).disp = s.disp := rfl
@[simp] theorem setEntry_track (n : Nat) (e : Entry) (s : State) : (setEntry n e s).track = s.track := rfl
@[simp] theorem setEntry_margin (n : Nat) (e : Entry) (s : State) : (setEntry n e s).margin = s.margin := rfl
@[simp] theorem setEntry_queue (n : Nat) (e : Entry) (s : State) : (setEntry n e s).queue = s.queue := rfl
@[simp] theorem setEntry_links (n : Nat) (e : Entry) (s : State) : (setEntry n e s).links = s.links := rfl
@[simp] theorem setEntry_resetHeld (n : Nat) (e : Entry) (s : State) : (setEntry n e s).resetHeld = s.resetHeld := rfl
@[simp] theorem setEntry_freeTick (n : Nat) (e : Entry) (s : State) : (setEntry n e s).freeTick = s.freeTick := rfl
@[simp] theorem setEntry_pending (n : Nat) (e : Entry) (s : State) : (setEntry n e s).pending = s.pending := rfl

/-! ### markEntries -/

@[simp] theorem markEntries_time (es : List Nat) (s : State) : (markEntries es s).time = s.time := rfl
@[simp] theorem markEntries_fleet (es : List Nat) (s : State) : (markEntries es s).fleet = s.fleet := rfl
@[simp] theorem markEntries_ctl (es : List Nat) (s : State) : (markEntries es s).ctl = s.ctl := rfl
@[simp] theorem markEntries_book (es : List Nat) (s : State) : (markEntries es s).book = s.book := rfl
@[simp] theorem markEntries_eval_job (es : List Nat) (s : State) : (markEntries es s).eval.job = s.eval.job := rfl
@[simp] theorem markEntries_eval_slot (es : List Nat) (s : State) : (markEntries es s).eval.slot = s.eval.slot := rfl
@[simp] theorem markEntries_eval_runCount (es : List Nat) (s : State) : (markEntries es s).eval.runCount = s.eval.runCount := rfl
@[simp] theorem markEntries_eval_start (es : List Nat) (s : State) : (markEntries es s).eval.start = s.eval.start := rfl
@[simp] theorem markEntries_eval_holdback (es : List Nat) (s : State) : (markEntries es s).eval.holdback = s.eval.holdback := rfl
@[simp] theorem markEntries_eval_minShare (es : List Nat) (s : State) : (markEntries es s).eval.minShare = s.eval.minShare := rfl
@[simp] theorem markEntries_shares (es : List Nat) (s : State) : (markEntries es s).shares = s.shares := rfl
@[simp] theorem markEntries_disp (es : List Nat) (s : State) : (markEntries es s).disp = s.disp := rfl
@[simp] theorem markEntries_track (es : List Nat) (s : State) : (markEntries es s).track = s.track := rfl
@[simp] theorem markEntries_margin (es : List Nat) (s : State) : (markEntries es s).margin = s.margin := rfl
@[simp] theorem markEntries_queue (es : List Nat) (s : State) : (markEntries es s).queue = s.queue := rfl
@[simp] theorem markEntries_links (es : List Nat) (s : State) : (markEntries es s).links = s.links := rfl
@[simp] theorem markEntries_resetHeld (es : List Nat) (s : State) : (markEntries es s).resetHeld = s.resetHeld := rfl
@[simp] theorem markEntries_freeTick (es : List Nat) (s : State) : (markEntries es s).freeTick = s.freeTick := rfl
@[simp] theorem markEntries_pending (es : List Nat) (s : State) : (markEntries es s).pending = s.pending := rfl

/-! ### unmarkEntry -/

@[simp] theorem unmarkEntry_time (n : Nat) (s : State) : (unmarkEntry n s).time = s.time := rfl
@[simp] theorem unmarkEntry_fleet (n : Nat) (s : State) : (unmarkEntry n s).fleet = s.fleet := rfl
@[simp] theorem unmarkEntry_ctl (n : Nat) (s : State) : (unmarkEntry n s).ctl = s.ctl := rfl
@[simp] theorem unmarkEntry_book (n : Nat) (s : State) : (unmarkEntry n s).book = s.book := rfl
@[simp] theorem unmarkEntry_eval_job (n : Nat) (s : State) : (unmarkEntry n s).eval.job = s.eval.job := rfl
@[simp] theorem unmarkEntry_eval_slot (n : Nat) (s : State) : (unmarkEntry n s).eval.slot = s.eval.slot := rfl
@[simp] theorem unmarkEntry_eval_runCount (n : Nat) (s : State) : (unmarkEntry n s).eval.runCount = s.eval.runCount := rfl
@[simp] theorem unmarkEntry_eval_start (n : Nat) (s : State) : (unmarkEntry n s).eval.start = s.eval.start := rfl
@[simp] theorem unmarkEntry_eval_holdback (n : Nat) (s : State) : (unmarkEntry n s).eval.holdback = s.eval.holdback := rfl
@[simp] theorem unmarkEntry_eval_minShare (n : Nat) (s : State) : (unmarkEntry n s).eval.minShare = s.eval.minShare := rfl
@[simp] theorem unmarkEntry_shares (n : Nat) (s : State) : (unmarkEntry n s).shares = s.shares := rfl
@[simp] theorem unmarkEntry_disp (n : Nat) (s : State) : (unmarkEntry n s).disp = s.disp := rfl
@[simp] theorem unmarkEntry_track (n : Nat) (s : State) : (unmarkEntry n s).track = s.track := rfl
@[simp] theorem unmarkEntry_margin (n : Nat) (s : State) : (unmarkEntry n s).margin = s.margin := rfl
@[simp] theorem unmarkEntry_queue (n : Nat) (s : State) : (unmarkEntry n s).queue = s.queue := rfl
@[simp] theorem unmarkEntry_links (n : Nat) (s : State) : (unmarkEntry n s).links = s.links := rfl
@[simp] theorem unmarkEntry_resetHeld (n : Nat) (s : State) : (unmarkEntry n s).resetHeld = s.resetHeld := rfl
@[simp] theorem unmarkEntry_freeTick (n : Nat) (s : State) : (unmarkEntry n s).freeTick = s.freeTick := rfl
@[simp] theorem unmarkEntry_pending (n : Nat) (s : State) : (unmarkEntry n s).pending = s.pending := rfl

/-! ### placeTl -/

@[simp] theorem placeTl_time (r : TlRequest) (s : State) : (placeTl r s).time = s.time := rfl
@[simp] theorem placeTl_fleet (r : TlRequest) (s : State) : (placeTl r s).fleet = s.fleet := rfl
@[simp] theorem placeTl_ctl (r : TlRequest) (s : State) : (placeTl r s).ctl = s.ctl := rfl
@[simp] theorem placeTl_book (r : TlRequest) (s : State) : (placeTl r s).book = s.book := rfl
@[simp] theorem placeTl_eval_job (r : TlRequest) (s : State) : (placeTl r s).eval.job = s.eval.job := rfl
@[simp] theorem placeTl_eval_replans (r : TlRequest) (s : State) : (placeTl r s).eval.replans = s.eval.replans := rfl
@[simp] theorem placeTl_eval_runCount (r : TlRequest) (s : State) : (placeTl r s).eval.runCount = s.eval.runCount := rfl
@[simp] theorem placeTl_eval_start (r : TlRequest) (s : State) : (placeTl r s).eval.start = s.eval.start := rfl
@[simp] theorem placeTl_eval_holdback (r : TlRequest) (s : State) : (placeTl r s).eval.holdback = s.eval.holdback := rfl
@[simp] theorem placeTl_eval_minShare (r : TlRequest) (s : State) : (placeTl r s).eval.minShare = s.eval.minShare := rfl
@[simp] theorem placeTl_shares (r : TlRequest) (s : State) : (placeTl r s).shares = s.shares := rfl
@[simp] theorem placeTl_disp (r : TlRequest) (s : State) : (placeTl r s).disp = s.disp := rfl
@[simp] theorem placeTl_track (r : TlRequest) (s : State) : (placeTl r s).track = s.track := rfl
@[simp] theorem placeTl_margin (r : TlRequest) (s : State) : (placeTl r s).margin = s.margin := rfl
@[simp] theorem placeTl_queue (r : TlRequest) (s : State) : (placeTl r s).queue = s.queue := rfl
@[simp] theorem placeTl_links (r : TlRequest) (s : State) : (placeTl r s).links = s.links := rfl
@[simp] theorem placeTl_resetHeld (r : TlRequest) (s : State) : (placeTl r s).resetHeld = s.resetHeld := rfl
@[simp] theorem placeTl_freeTick (r : TlRequest) (s : State) : (placeTl r s).freeTick = s.freeTick := rfl
@[simp] theorem placeTl_pending (r : TlRequest) (s : State) : (placeTl r s).pending = s.pending := rfl

/-! ### setShares -/

@[simp] theorem setShares_time (rs : List ShareRec) (s : State) : (setShares rs s).time = s.time := rfl
@[simp] theorem setShares_fleet (rs : List ShareRec) (s : State) : (setShares rs s).fleet = s.fleet := rfl
@[simp] theorem setShares_ctl (rs : List ShareRec) (s : State) : (setShares rs s).ctl = s.ctl := rfl
@[simp] theorem setShares_book (rs : List ShareRec) (s : State) : (setShares rs s).book = s.book := rfl
@[simp] theorem setShares_eval (rs : List ShareRec) (s : State) : (setShares rs s).eval = s.eval := rfl
@[simp] theorem setShares_shares (rs : List ShareRec) (s : State) : (setShares rs s).shares = rs := rfl
@[simp] theorem setShares_disp (rs : List ShareRec) (s : State) : (setShares rs s).disp = s.disp := rfl
@[simp] theorem setShares_track (rs : List ShareRec) (s : State) : (setShares rs s).track = s.track := rfl
@[simp] theorem setShares_margin (rs : List ShareRec) (s : State) : (setShares rs s).margin = s.margin := rfl
@[simp] theorem setShares_queue (rs : List ShareRec) (s : State) : (setShares rs s).queue = s.queue := rfl
@[simp] theorem setShares_links (rs : List ShareRec) (s : State) : (setShares rs s).links = s.links := rfl
@[simp] theorem setShares_resetHeld (rs : List ShareRec) (s : State) : (setShares rs s).resetHeld = s.resetHeld := rfl
@[simp] theorem setShares_freeTick (rs : List ShareRec) (s : State) : (setShares rs s).freeTick = s.freeTick := rfl
@[simp] theorem setShares_pending (rs : List ShareRec) (s : State) : (setShares rs s).pending = s.pending := rfl

/-! ### setLink -/

@[simp] theorem setLink_time (l : Link) (r : LinkRec) (s : State) : (setLink l r s).time = s.time := by
  cases l <;> rfl
@[simp] theorem setLink_fleet (l : Link) (r : LinkRec) (s : State) : (setLink l r s).fleet = s.fleet := by
  cases l <;> rfl
@[simp] theorem setLink_ctl (l : Link) (r : LinkRec) (s : State) : (setLink l r s).ctl = s.ctl := by
  cases l <;> rfl
@[simp] theorem setLink_book (l : Link) (r : LinkRec) (s : State) : (setLink l r s).book = s.book := by
  cases l <;> rfl
@[simp] theorem setLink_eval (l : Link) (r : LinkRec) (s : State) : (setLink l r s).eval = s.eval := by
  cases l <;> rfl
@[simp] theorem setLink_shares (l : Link) (r : LinkRec) (s : State) : (setLink l r s).shares = s.shares := by
  cases l <;> rfl
@[simp] theorem setLink_disp (l : Link) (r : LinkRec) (s : State) : (setLink l r s).disp = s.disp := by
  cases l <;> rfl
@[simp] theorem setLink_track (l : Link) (r : LinkRec) (s : State) : (setLink l r s).track = s.track := by
  cases l <;> rfl
@[simp] theorem setLink_margin (l : Link) (r : LinkRec) (s : State) : (setLink l r s).margin = s.margin := by
  cases l <;> rfl
@[simp] theorem setLink_queue (l : Link) (r : LinkRec) (s : State) : (setLink l r s).queue = s.queue := by
  cases l <;> rfl
@[simp] theorem setLink_resetHeld (l : Link) (r : LinkRec) (s : State) : (setLink l r s).resetHeld = s.resetHeld := by
  cases l <;> rfl
@[simp] theorem setLink_freeTick (l : Link) (r : LinkRec) (s : State) : (setLink l r s).freeTick = s.freeTick := by
  cases l <;> rfl
@[simp] theorem setLink_pending (l : Link) (r : LinkRec) (s : State) : (setLink l r s).pending = s.pending := by
  cases l <;> rfl
@[simp] theorem setLink_mapA (l : Link) (r : LinkRec) (s : State) :
    (setLink l r s).links.mapA = s.links.mapA := by cases l <;> rfl
@[simp] theorem setLink_mapB (l : Link) (r : LinkRec) (s : State) :
    (setLink l r s).links.mapB = s.links.mapB := by cases l <;> rfl

@[simp] theorem linkOf_setLink_self (l : Link) (r : LinkRec) (s : State) : linkOf (setLink l r s) l = r := by
  cases l <;> rfl

theorem linkOf_setLink_ne {l k : Link} (h : k ≠ l) (r : LinkRec) (s : State) :
    linkOf (setLink l r s) k = linkOf s k := by
  cases l <;> cases k <;> first | rfl | exact absurd rfl h

@[simp] theorem setLink_linkOf (l : Link) (s : State) : setLink l (linkOf s l) s = s := by
  cases l <;> rfl

@[simp] theorem setLink_setLink (l : Link) (r q : LinkRec) (s : State) :
    setLink l q (setLink l r s) = setLink l q s := by
  cases l <;> rfl

/-! ### Reads after a write of another table -/

@[simp] theorem unitOf_setFeeder (g : Nat) (f : FeederLimits) (s : State) (j : Nat) :
    unitOf (setFeeder g f s) j = unitOf s j := rfl
@[simp] theorem unitOf_setChannel (c : Nat) (r : ChannelRec) (s : State) (j : Nat) :
    unitOf (setChannel c r s) j = unitOf s j := rfl
@[simp] theorem unitOf_setEntry (n : Nat) (e : Entry) (s : State) (j : Nat) :
    unitOf (setEntry n e s) j = unitOf s j := rfl
@[simp] theorem unitOf_markEntries (es : List Nat) (s : State) (j : Nat) :
    unitOf (markEntries es s) j = unitOf s j := rfl
@[simp] theorem unitOf_unmarkEntry (n : Nat) (s : State) (j : Nat) :
    unitOf (unmarkEntry n s) j = unitOf s j := rfl
@[simp] theorem unitOf_placeTl (r : TlRequest) (s : State) (j : Nat) :
    unitOf (placeTl r s) j = unitOf s j := rfl
@[simp] theorem unitOf_setShares (rs : List ShareRec) (s : State) (j : Nat) :
    unitOf (setShares rs s) j = unitOf s j := rfl
@[simp] theorem unitOf_setLink (l : Link) (r : LinkRec) (s : State) (j : Nat) :
    unitOf (setLink l r s) j = unitOf s j := by cases l <;> rfl
@[simp] theorem feederOf_setUnit (i : Nat) (u : UnitRec) (s : State) (j : Nat) :
    feederOf (setUnit i u s) j = feederOf s j := rfl
@[simp] theorem feederOf_setChannel (c : Nat) (r : ChannelRec) (s : State) (j : Nat) :
    feederOf (setChannel c r s) j = feederOf s j := rfl
@[simp] theorem feederOf_setEntry (n : Nat) (e : Entry) (s : State) (j : Nat) :
    feederOf (setEntry n e s) j = feederOf s j := rfl
@[simp] theorem feederOf_markEntries (es : List Nat) (s : State) (j : Nat) :
    feederOf (markEntries es s) j = feederOf s j := rfl
@[simp] theorem feederOf_unmarkEntry (n : Nat) (s : State) (j : Nat) :
    feederOf (unmarkEntry n s) j = feederOf s j := rfl
@[simp] theorem feederOf_placeTl (r : TlRequest) (s : State) (j : Nat) :
    feederOf (placeTl r s) j = feederOf s j := rfl
@[simp] theorem feederOf_setShares (rs : List ShareRec) (s : State) (j : Nat) :
    feederOf (setShares rs s) j = feederOf s j := rfl
@[simp] theorem feederOf_setLink (l : Link) (r : LinkRec) (s : State) (j : Nat) :
    feederOf (setLink l r s) j = feederOf s j := by cases l <;> rfl
@[simp] theorem channelOf_setUnit (i : Nat) (u : UnitRec) (s : State) (j : Nat) :
    channelOf (setUnit i u s) j = channelOf s j := rfl
@[simp] theorem channelOf_setFeeder (g : Nat) (f : FeederLimits) (s : State) (j : Nat) :
    channelOf (setFeeder g f s) j = channelOf s j := rfl
@[simp] theorem channelOf_setEntry (n : Nat) (e : Entry) (s : State) (j : Nat) :
    channelOf (setEntry n e s) j = channelOf s j := rfl
@[simp] theorem channelOf_markEntries (es : List Nat) (s : State) (j : Nat) :
    channelOf (markEntries es s) j = channelOf s j := rfl
@[simp] theorem channelOf_unmarkEntry (n : Nat) (s : State) (j : Nat) :
    channelOf (unmarkEntry n s) j = channelOf s j := rfl
@[simp] theorem channelOf_placeTl (r : TlRequest) (s : State) (j : Nat) :
    channelOf (placeTl r s) j = channelOf s j := rfl
@[simp] theorem channelOf_setShares (rs : List ShareRec) (s : State) (j : Nat) :
    channelOf (setShares rs s) j = channelOf s j := rfl
@[simp] theorem channelOf_setLink (l : Link) (r : LinkRec) (s : State) (j : Nat) :
    channelOf (setLink l r s) j = channelOf s j := by cases l <;> rfl
@[simp] theorem entryOf_setUnit (i : Nat) (u : UnitRec) (s : State) (j : Nat) :
    entryOf (setUnit i u s) j = entryOf s j := rfl
@[simp] theorem entryOf_setFeeder (g : Nat) (f : FeederLimits) (s : State) (j : Nat) :
    entryOf (setFeeder g f s) j = entryOf s j := rfl
@[simp] theorem entryOf_setChannel (c : Nat) (r : ChannelRec) (s : State) (j : Nat) :
    entryOf (setChannel c r s) j = entryOf s j := rfl
@[simp] theorem entryOf_markEntries (es : List Nat) (s : State) (j : Nat) :
    entryOf (markEntries es s) j = entryOf s j := rfl
@[simp] theorem entryOf_unmarkEntry (n : Nat) (s : State) (j : Nat) :
    entryOf (unmarkEntry n s) j = entryOf s j := rfl
@[simp] theorem entryOf_placeTl (r : TlRequest) (s : State) (j : Nat) :
    entryOf (placeTl r s) j = entryOf s j := rfl
@[simp] theorem entryOf_setShares (rs : List ShareRec) (s : State) (j : Nat) :
    entryOf (setShares rs s) j = entryOf s j := rfl
@[simp] theorem entryOf_setLink (l : Link) (r : LinkRec) (s : State) (j : Nat) :
    entryOf (setLink l r s) j = entryOf s j := by cases l <;> rfl
@[simp] theorem linkOf_setUnit (i : Nat) (u : UnitRec) (s : State) (l : Link) :
    linkOf (setUnit i u s) l = linkOf s l := by cases l <;> rfl
@[simp] theorem linkOf_setFeeder (g : Nat) (f : FeederLimits) (s : State) (l : Link) :
    linkOf (setFeeder g f s) l = linkOf s l := by cases l <;> rfl
@[simp] theorem linkOf_setChannel (c : Nat) (r : ChannelRec) (s : State) (l : Link) :
    linkOf (setChannel c r s) l = linkOf s l := by cases l <;> rfl
@[simp] theorem linkOf_setEntry (n : Nat) (e : Entry) (s : State) (l : Link) :
    linkOf (setEntry n e s) l = linkOf s l := by cases l <;> rfl
@[simp] theorem linkOf_markEntries (es : List Nat) (s : State) (l : Link) :
    linkOf (markEntries es s) l = linkOf s l := by cases l <;> rfl
@[simp] theorem linkOf_unmarkEntry (n : Nat) (s : State) (l : Link) :
    linkOf (unmarkEntry n s) l = linkOf s l := by cases l <;> rfl
@[simp] theorem linkOf_placeTl (r : TlRequest) (s : State) (l : Link) :
    linkOf (placeTl r s) l = linkOf s l := by cases l <;> rfl
@[simp] theorem linkOf_setShares (rs : List ShareRec) (s : State) (l : Link) :
    linkOf (setShares rs s) l = linkOf s l := by cases l <;> rfl

/-! ### frameComplete, raiseOn and the owed answers write one link record -/

@[simp] theorem frameComplete_time (l : Link) (s : State) :
    (frameComplete l s).time = s.time := by simp [frameComplete]
@[simp] theorem frameComplete_fleet (l : Link) (s : State) :
    (frameComplete l s).fleet = s.fleet := by simp [frameComplete]
@[simp] theorem frameComplete_ctl (l : Link) (s : State) :
    (frameComplete l s).ctl = s.ctl := by simp [frameComplete]
@[simp] theorem frameComplete_book (l : Link) (s : State) :
    (frameComplete l s).book = s.book := by simp [frameComplete]
@[simp] theorem frameComplete_eval (l : Link) (s : State) :
    (frameComplete l s).eval = s.eval := by simp [frameComplete]
@[simp] theorem frameComplete_shares (l : Link) (s : State) :
    (frameComplete l s).shares = s.shares := by simp [frameComplete]
@[simp] theorem frameComplete_disp (l : Link) (s : State) :
    (frameComplete l s).disp = s.disp := by simp [frameComplete]
@[simp] theorem frameComplete_track (l : Link) (s : State) :
    (frameComplete l s).track = s.track := by simp [frameComplete]
@[simp] theorem frameComplete_margin (l : Link) (s : State) :
    (frameComplete l s).margin = s.margin := by simp [frameComplete]
@[simp] theorem frameComplete_queue (l : Link) (s : State) :
    (frameComplete l s).queue = s.queue := by simp [frameComplete]
@[simp] theorem frameComplete_resetHeld (l : Link) (s : State) :
    (frameComplete l s).resetHeld = s.resetHeld := by simp [frameComplete]
@[simp] theorem frameComplete_freeTick (l : Link) (s : State) :
    (frameComplete l s).freeTick = s.freeTick := by simp [frameComplete]
@[simp] theorem frameComplete_pending (l : Link) (s : State) :
    (frameComplete l s).pending = s.pending := by simp [frameComplete]
@[simp] theorem frameComplete_mapA (l : Link) (s : State) :
    (frameComplete l s).links.mapA = s.links.mapA := by simp [frameComplete]
@[simp] theorem frameComplete_mapB (l : Link) (s : State) :
    (frameComplete l s).links.mapB = s.links.mapB := by simp [frameComplete]
@[simp] theorem unitOf_frameComplete (l : Link) (s : State) (j : Nat) :
    unitOf (frameComplete l s) j = unitOf s j := by simp [frameComplete]
@[simp] theorem feederOf_frameComplete (l : Link) (s : State) (j : Nat) :
    feederOf (frameComplete l s) j = feederOf s j := by simp [frameComplete]
@[simp] theorem channelOf_frameComplete (l : Link) (s : State) (j : Nat) :
    channelOf (frameComplete l s) j = channelOf s j := by simp [frameComplete]
@[simp] theorem entryOf_frameComplete (l : Link) (s : State) (j : Nat) :
    entryOf (frameComplete l s) j = entryOf s j := by simp [frameComplete]
@[simp] theorem raiseOn_time (l : Link) (k : NoticeKind) (s : State) :
    (raiseOn l k s).time = s.time := by simp [raiseOn]
@[simp] theorem raiseOn_fleet (l : Link) (k : NoticeKind) (s : State) :
    (raiseOn l k s).fleet = s.fleet := by simp [raiseOn]
@[simp] theorem raiseOn_ctl (l : Link) (k : NoticeKind) (s : State) :
    (raiseOn l k s).ctl = s.ctl := by simp [raiseOn]
@[simp] theorem raiseOn_book (l : Link) (k : NoticeKind) (s : State) :
    (raiseOn l k s).book = s.book := by simp [raiseOn]
@[simp] theorem raiseOn_eval (l : Link) (k : NoticeKind) (s : State) :
    (raiseOn l k s).eval = s.eval := by simp [raiseOn]
@[simp] theorem raiseOn_shares (l : Link) (k : NoticeKind) (s : State) :
    (raiseOn l k s).shares = s.shares := by simp [raiseOn]
@[simp] theorem raiseOn_disp (l : Link) (k : NoticeKind) (s : State) :
    (raiseOn l k s).disp = s.disp := by simp [raiseOn]
@[simp] theorem raiseOn_track (l : Link) (k : NoticeKind) (s : State) :
    (raiseOn l k s).track = s.track := by simp [raiseOn]
@[simp] theorem raiseOn_margin (l : Link) (k : NoticeKind) (s : State) :
    (raiseOn l k s).margin = s.margin := by simp [raiseOn]
@[simp] theorem raiseOn_queue (l : Link) (k : NoticeKind) (s : State) :
    (raiseOn l k s).queue = s.queue := by simp [raiseOn]
@[simp] theorem raiseOn_resetHeld (l : Link) (k : NoticeKind) (s : State) :
    (raiseOn l k s).resetHeld = s.resetHeld := by simp [raiseOn]
@[simp] theorem raiseOn_freeTick (l : Link) (k : NoticeKind) (s : State) :
    (raiseOn l k s).freeTick = s.freeTick := by simp [raiseOn]
@[simp] theorem raiseOn_pending (l : Link) (k : NoticeKind) (s : State) :
    (raiseOn l k s).pending = s.pending := by simp [raiseOn]
@[simp] theorem raiseOn_mapA (l : Link) (k : NoticeKind) (s : State) :
    (raiseOn l k s).links.mapA = s.links.mapA := by simp [raiseOn]
@[simp] theorem raiseOn_mapB (l : Link) (k : NoticeKind) (s : State) :
    (raiseOn l k s).links.mapB = s.links.mapB := by simp [raiseOn]
@[simp] theorem unitOf_raiseOn (l : Link) (k : NoticeKind) (s : State) (j : Nat) :
    unitOf (raiseOn l k s) j = unitOf s j := by simp [raiseOn]
@[simp] theorem feederOf_raiseOn (l : Link) (k : NoticeKind) (s : State) (j : Nat) :
    feederOf (raiseOn l k s) j = feederOf s j := by simp [raiseOn]
@[simp] theorem channelOf_raiseOn (l : Link) (k : NoticeKind) (s : State) (j : Nat) :
    channelOf (raiseOn l k s) j = channelOf s j := by simp [raiseOn]
@[simp] theorem entryOf_raiseOn (l : Link) (k : NoticeKind) (s : State) (j : Nat) :
    entryOf (raiseOn l k s) j = entryOf s j := by simp [raiseOn]
@[simp] theorem oweAnswer_time (l : Link) (tag : Byte) (code : AnswerCode) (result : List Byte) (b : Bool) (s : State) :
    (oweAnswer l tag code result b s).time = s.time := by simp [oweAnswer]
@[simp] theorem oweAnswer_fleet (l : Link) (tag : Byte) (code : AnswerCode) (result : List Byte) (b : Bool) (s : State) :
    (oweAnswer l tag code result b s).fleet = s.fleet := by simp [oweAnswer]
@[simp] theorem oweAnswer_ctl (l : Link) (tag : Byte) (code : AnswerCode) (result : List Byte) (b : Bool) (s : State) :
    (oweAnswer l tag code result b s).ctl = s.ctl := by simp [oweAnswer]
@[simp] theorem oweAnswer_book (l : Link) (tag : Byte) (code : AnswerCode) (result : List Byte) (b : Bool) (s : State) :
    (oweAnswer l tag code result b s).book = s.book := by simp [oweAnswer]
@[simp] theorem oweAnswer_eval (l : Link) (tag : Byte) (code : AnswerCode) (result : List Byte) (b : Bool) (s : State) :
    (oweAnswer l tag code result b s).eval = s.eval := by simp [oweAnswer]
@[simp] theorem oweAnswer_shares (l : Link) (tag : Byte) (code : AnswerCode) (result : List Byte) (b : Bool) (s : State) :
    (oweAnswer l tag code result b s).shares = s.shares := by simp [oweAnswer]
@[simp] theorem oweAnswer_disp (l : Link) (tag : Byte) (code : AnswerCode) (result : List Byte) (b : Bool) (s : State) :
    (oweAnswer l tag code result b s).disp = s.disp := by simp [oweAnswer]
@[simp] theorem oweAnswer_track (l : Link) (tag : Byte) (code : AnswerCode) (result : List Byte) (b : Bool) (s : State) :
    (oweAnswer l tag code result b s).track = s.track := by simp [oweAnswer]
@[simp] theorem oweAnswer_margin (l : Link) (tag : Byte) (code : AnswerCode) (result : List Byte) (b : Bool) (s : State) :
    (oweAnswer l tag code result b s).margin = s.margin := by simp [oweAnswer]
@[simp] theorem oweAnswer_queue (l : Link) (tag : Byte) (code : AnswerCode) (result : List Byte) (b : Bool) (s : State) :
    (oweAnswer l tag code result b s).queue = s.queue := by simp [oweAnswer]
@[simp] theorem oweAnswer_resetHeld (l : Link) (tag : Byte) (code : AnswerCode) (result : List Byte) (b : Bool) (s : State) :
    (oweAnswer l tag code result b s).resetHeld = s.resetHeld := by simp [oweAnswer]
@[simp] theorem oweAnswer_freeTick (l : Link) (tag : Byte) (code : AnswerCode) (result : List Byte) (b : Bool) (s : State) :
    (oweAnswer l tag code result b s).freeTick = s.freeTick := by simp [oweAnswer]
@[simp] theorem oweAnswer_pending (l : Link) (tag : Byte) (code : AnswerCode) (result : List Byte) (b : Bool) (s : State) :
    (oweAnswer l tag code result b s).pending = s.pending := by simp [oweAnswer]
@[simp] theorem oweAnswer_mapA (l : Link) (tag : Byte) (code : AnswerCode) (result : List Byte) (b : Bool) (s : State) :
    (oweAnswer l tag code result b s).links.mapA = s.links.mapA := by simp [oweAnswer]
@[simp] theorem oweAnswer_mapB (l : Link) (tag : Byte) (code : AnswerCode) (result : List Byte) (b : Bool) (s : State) :
    (oweAnswer l tag code result b s).links.mapB = s.links.mapB := by simp [oweAnswer]
@[simp] theorem unitOf_oweAnswer (l : Link) (tag : Byte) (code : AnswerCode) (result : List Byte) (b : Bool) (s : State) (j : Nat) :
    unitOf (oweAnswer l tag code result b s) j = unitOf s j := by simp [oweAnswer]
@[simp] theorem feederOf_oweAnswer (l : Link) (tag : Byte) (code : AnswerCode) (result : List Byte) (b : Bool) (s : State) (j : Nat) :
    feederOf (oweAnswer l tag code result b s) j = feederOf s j := by simp [oweAnswer]
@[simp] theorem channelOf_oweAnswer (l : Link) (tag : Byte) (code : AnswerCode) (result : List Byte) (b : Bool) (s : State) (j : Nat) :
    channelOf (oweAnswer l tag code result b s) j = channelOf s j := by simp [oweAnswer]
@[simp] theorem entryOf_oweAnswer (l : Link) (tag : Byte) (code : AnswerCode) (result : List Byte) (b : Bool) (s : State) (j : Nat) :
    entryOf (oweAnswer l tag code result b s) j = entryOf s j := by simp [oweAnswer]
@[simp] theorem oweBusy_time (l : Link) (tag : Byte) (s : State) :
    (oweBusy l tag s).time = s.time := by simp [oweBusy]
@[simp] theorem oweBusy_fleet (l : Link) (tag : Byte) (s : State) :
    (oweBusy l tag s).fleet = s.fleet := by simp [oweBusy]
@[simp] theorem oweBusy_ctl (l : Link) (tag : Byte) (s : State) :
    (oweBusy l tag s).ctl = s.ctl := by simp [oweBusy]
@[simp] theorem oweBusy_book (l : Link) (tag : Byte) (s : State) :
    (oweBusy l tag s).book = s.book := by simp [oweBusy]
@[simp] theorem oweBusy_eval (l : Link) (tag : Byte) (s : State) :
    (oweBusy l tag s).eval = s.eval := by simp [oweBusy]
@[simp] theorem oweBusy_shares (l : Link) (tag : Byte) (s : State) :
    (oweBusy l tag s).shares = s.shares := by simp [oweBusy]
@[simp] theorem oweBusy_disp (l : Link) (tag : Byte) (s : State) :
    (oweBusy l tag s).disp = s.disp := by simp [oweBusy]
@[simp] theorem oweBusy_track (l : Link) (tag : Byte) (s : State) :
    (oweBusy l tag s).track = s.track := by simp [oweBusy]
@[simp] theorem oweBusy_margin (l : Link) (tag : Byte) (s : State) :
    (oweBusy l tag s).margin = s.margin := by simp [oweBusy]
@[simp] theorem oweBusy_queue (l : Link) (tag : Byte) (s : State) :
    (oweBusy l tag s).queue = s.queue := by simp [oweBusy]
@[simp] theorem oweBusy_resetHeld (l : Link) (tag : Byte) (s : State) :
    (oweBusy l tag s).resetHeld = s.resetHeld := by simp [oweBusy]
@[simp] theorem oweBusy_freeTick (l : Link) (tag : Byte) (s : State) :
    (oweBusy l tag s).freeTick = s.freeTick := by simp [oweBusy]
@[simp] theorem oweBusy_pending (l : Link) (tag : Byte) (s : State) :
    (oweBusy l tag s).pending = s.pending := by simp [oweBusy]
@[simp] theorem oweBusy_mapA (l : Link) (tag : Byte) (s : State) :
    (oweBusy l tag s).links.mapA = s.links.mapA := by simp [oweBusy]
@[simp] theorem oweBusy_mapB (l : Link) (tag : Byte) (s : State) :
    (oweBusy l tag s).links.mapB = s.links.mapB := by simp [oweBusy]
@[simp] theorem unitOf_oweBusy (l : Link) (tag : Byte) (s : State) (j : Nat) :
    unitOf (oweBusy l tag s) j = unitOf s j := by simp [oweBusy]
@[simp] theorem feederOf_oweBusy (l : Link) (tag : Byte) (s : State) (j : Nat) :
    feederOf (oweBusy l tag s) j = feederOf s j := by simp [oweBusy]
@[simp] theorem channelOf_oweBusy (l : Link) (tag : Byte) (s : State) (j : Nat) :
    channelOf (oweBusy l tag s) j = channelOf s j := by simp [oweBusy]
@[simp] theorem entryOf_oweBusy (l : Link) (tag : Byte) (s : State) (j : Nat) :
    entryOf (oweBusy l tag s) j = entryOf s j := by simp [oweBusy]
@[simp] theorem oweTelegram_time (tag : Byte) (code : AnswerCode) (result : List Byte) (s : State) :
    (oweTelegram tag code result s).time = s.time := by simp [oweTelegram]
@[simp] theorem oweTelegram_fleet (tag : Byte) (code : AnswerCode) (result : List Byte) (s : State) :
    (oweTelegram tag code result s).fleet = s.fleet := by simp [oweTelegram]
@[simp] theorem oweTelegram_ctl (tag : Byte) (code : AnswerCode) (result : List Byte) (s : State) :
    (oweTelegram tag code result s).ctl = s.ctl := by simp [oweTelegram]
@[simp] theorem oweTelegram_book (tag : Byte) (code : AnswerCode) (result : List Byte) (s : State) :
    (oweTelegram tag code result s).book = s.book := by simp [oweTelegram]
@[simp] theorem oweTelegram_eval (tag : Byte) (code : AnswerCode) (result : List Byte) (s : State) :
    (oweTelegram tag code result s).eval = s.eval := by simp [oweTelegram]
@[simp] theorem oweTelegram_shares (tag : Byte) (code : AnswerCode) (result : List Byte) (s : State) :
    (oweTelegram tag code result s).shares = s.shares := by simp [oweTelegram]
@[simp] theorem oweTelegram_disp (tag : Byte) (code : AnswerCode) (result : List Byte) (s : State) :
    (oweTelegram tag code result s).disp = s.disp := by simp [oweTelegram]
@[simp] theorem oweTelegram_track (tag : Byte) (code : AnswerCode) (result : List Byte) (s : State) :
    (oweTelegram tag code result s).track = s.track := by simp [oweTelegram]
@[simp] theorem oweTelegram_margin (tag : Byte) (code : AnswerCode) (result : List Byte) (s : State) :
    (oweTelegram tag code result s).margin = s.margin := by simp [oweTelegram]
@[simp] theorem oweTelegram_queue (tag : Byte) (code : AnswerCode) (result : List Byte) (s : State) :
    (oweTelegram tag code result s).queue = s.queue := by simp [oweTelegram]
@[simp] theorem oweTelegram_resetHeld (tag : Byte) (code : AnswerCode) (result : List Byte) (s : State) :
    (oweTelegram tag code result s).resetHeld = s.resetHeld := by simp [oweTelegram]
@[simp] theorem oweTelegram_freeTick (tag : Byte) (code : AnswerCode) (result : List Byte) (s : State) :
    (oweTelegram tag code result s).freeTick = s.freeTick := by simp [oweTelegram]
@[simp] theorem oweTelegram_pending (tag : Byte) (code : AnswerCode) (result : List Byte) (s : State) :
    (oweTelegram tag code result s).pending = s.pending := by simp [oweTelegram]
@[simp] theorem oweTelegram_mapA (tag : Byte) (code : AnswerCode) (result : List Byte) (s : State) :
    (oweTelegram tag code result s).links.mapA = s.links.mapA := by simp [oweTelegram]
@[simp] theorem oweTelegram_mapB (tag : Byte) (code : AnswerCode) (result : List Byte) (s : State) :
    (oweTelegram tag code result s).links.mapB = s.links.mapB := by simp [oweTelegram]
@[simp] theorem unitOf_oweTelegram (tag : Byte) (code : AnswerCode) (result : List Byte) (s : State) (j : Nat) :
    unitOf (oweTelegram tag code result s) j = unitOf s j := by simp [oweTelegram]
@[simp] theorem feederOf_oweTelegram (tag : Byte) (code : AnswerCode) (result : List Byte) (s : State) (j : Nat) :
    feederOf (oweTelegram tag code result s) j = feederOf s j := by simp [oweTelegram]
@[simp] theorem channelOf_oweTelegram (tag : Byte) (code : AnswerCode) (result : List Byte) (s : State) (j : Nat) :
    channelOf (oweTelegram tag code result s) j = channelOf s j := by simp [oweTelegram]
@[simp] theorem entryOf_oweTelegram (tag : Byte) (code : AnswerCode) (result : List Byte) (s : State) (j : Nat) :
    entryOf (oweTelegram tag code result s) j = entryOf s j := by simp [oweTelegram]
@[simp] theorem setReceiver_time (l : Link) (r : Receiver) (s : State) :
    (setReceiver l r s).time = s.time := by simp [setReceiver]
@[simp] theorem setReceiver_fleet (l : Link) (r : Receiver) (s : State) :
    (setReceiver l r s).fleet = s.fleet := by simp [setReceiver]
@[simp] theorem setReceiver_ctl (l : Link) (r : Receiver) (s : State) :
    (setReceiver l r s).ctl = s.ctl := by simp [setReceiver]
@[simp] theorem setReceiver_book (l : Link) (r : Receiver) (s : State) :
    (setReceiver l r s).book = s.book := by simp [setReceiver]
@[simp] theorem setReceiver_eval (l : Link) (r : Receiver) (s : State) :
    (setReceiver l r s).eval = s.eval := by simp [setReceiver]
@[simp] theorem setReceiver_shares (l : Link) (r : Receiver) (s : State) :
    (setReceiver l r s).shares = s.shares := by simp [setReceiver]
@[simp] theorem setReceiver_disp (l : Link) (r : Receiver) (s : State) :
    (setReceiver l r s).disp = s.disp := by simp [setReceiver]
@[simp] theorem setReceiver_track (l : Link) (r : Receiver) (s : State) :
    (setReceiver l r s).track = s.track := by simp [setReceiver]
@[simp] theorem setReceiver_margin (l : Link) (r : Receiver) (s : State) :
    (setReceiver l r s).margin = s.margin := by simp [setReceiver]
@[simp] theorem setReceiver_queue (l : Link) (r : Receiver) (s : State) :
    (setReceiver l r s).queue = s.queue := by simp [setReceiver]
@[simp] theorem setReceiver_resetHeld (l : Link) (r : Receiver) (s : State) :
    (setReceiver l r s).resetHeld = s.resetHeld := by simp [setReceiver]
@[simp] theorem setReceiver_freeTick (l : Link) (r : Receiver) (s : State) :
    (setReceiver l r s).freeTick = s.freeTick := by simp [setReceiver]
@[simp] theorem setReceiver_pending (l : Link) (r : Receiver) (s : State) :
    (setReceiver l r s).pending = s.pending := by simp [setReceiver]
@[simp] theorem setReceiver_mapA (l : Link) (r : Receiver) (s : State) :
    (setReceiver l r s).links.mapA = s.links.mapA := by simp [setReceiver]
@[simp] theorem setReceiver_mapB (l : Link) (r : Receiver) (s : State) :
    (setReceiver l r s).links.mapB = s.links.mapB := by simp [setReceiver]
@[simp] theorem unitOf_setReceiver (l : Link) (r : Receiver) (s : State) (j : Nat) :
    unitOf (setReceiver l r s) j = unitOf s j := by simp [setReceiver]
@[simp] theorem feederOf_setReceiver (l : Link) (r : Receiver) (s : State) (j : Nat) :
    feederOf (setReceiver l r s) j = feederOf s j := by simp [setReceiver]
@[simp] theorem channelOf_setReceiver (l : Link) (r : Receiver) (s : State) (j : Nat) :
    channelOf (setReceiver l r s) j = channelOf s j := by simp [setReceiver]
@[simp] theorem entryOf_setReceiver (l : Link) (r : Receiver) (s : State) (j : Nat) :
    entryOf (setReceiver l r s) j = entryOf s j := by simp [setReceiver]

end Sys2Proof.Machine
end

