-- ==== Sys2Proof/Laws/Tables.lean ====
section
/-! SUPPORT. What the operations on tables can do: reading after writing, and the one form they keep. -/

namespace Sys2Proof.Machine

variable {α : Type}

/-! ### Finding -/

theorem tableFind_mem {t : List (Nat × α)} {i : Nat} {v : α} (h : tableFind t i = some v) :
    (i, v) ∈ t := by
  induction t with
  | nil => simp [tableFind] at h
  | cons p t ih =>
    obtain ⟨k, w⟩ := p
    simp only [tableFind] at h
    split at h
    · simp_all
    · exact List.mem_cons_of_mem _ (ih h)

theorem ascending_cons {p : Nat × α} {t : List (Nat × α)} :
    Ascending (p :: t) ↔ (∀ q ∈ t, p.1 < q.1) ∧ Ascending t := by
  simp [Ascending, List.pairwise_cons]

theorem tableFind_of_mem {t : List (Nat × α)} (h : Ascending t) {i : Nat} {v : α} (m : (i, v) ∈ t) :
    tableFind t i = some v := by
  induction t with
  | nil => simp at m
  | cons p t ih =>
    obtain ⟨k, w⟩ := p
    rw [ascending_cons] at h
    simp only [tableFind]
    rcases List.mem_cons.1 m with e | m
    · simp_all
    · have := h.1 _ m
      rw [if_neg (by simp at this; omega)]
      exact ih h.2 m

theorem tableFind_none_of_lt {t : List (Nat × α)} {i : Nat} (h : ∀ q ∈ t, i < q.1) :
    tableFind t i = none := by
  induction t with
  | nil => rfl
  | cons p t ih =>
    obtain ⟨k, w⟩ := p
    have := h _ (List.mem_cons_self ..)
    simp only [tableFind]
    rw [if_neg (by simp at this; omega)]
    exact ih fun q m => h q (List.mem_cons_of_mem _ m)

/-! ### Inserting -/

/-- A write answers every read of its number with what was written, and no other read differs. -/
theorem tableFind_tableInsert (t : List (Nat × α)) (i j : Nat) (v : α) :
    tableFind (tableInsert t i v) j = if j = i then some v else tableFind t j := by
  induction t with
  | nil => simp [tableInsert, tableFind, eq_comm]
  | cons p t ih =>
    obtain ⟨k, w⟩ := p
    simp only [tableInsert]
    by_cases h1 : i < k
    · rw [if_pos h1]
      simp only [tableFind]
      split_ifs <;> first | rfl | omega
    · rw [if_neg h1]
      by_cases h2 : i = k
      · rw [if_pos h2]
        simp only [tableFind]
        split_ifs <;> first | rfl | omega
      · rw [if_neg h2]
        simp only [tableFind, ih]
        split_ifs <;> first | rfl | omega

/-- Of two writes to one number the later stands. -/
theorem tableInsert_tableInsert (t : List (Nat × α)) (i : Nat) (v w : α) :
    tableInsert (tableInsert t i v) i w = tableInsert t i w := by
  induction t with
  | nil => simp [tableInsert]
  | cons p t ih =>
    simp only [tableInsert]
    split_ifs with h1 h2 <;> simp [tableInsert, *]

theorem mem_tableInsert {t : List (Nat × α)} {i : Nat} {v : α} {p : Nat × α}
    (h : p ∈ tableInsert t i v) : p = (i, v) ∨ p ∈ t := by
  induction t with
  | nil => simpa [tableInsert] using h
  | cons q t ih =>
    obtain ⟨k, w⟩ := q
    simp only [tableInsert] at h
    split_ifs at h
    · simpa using h
    · rcases List.mem_cons.1 h with h | h
      · exact .inl h
      · exact .inr (List.mem_cons_of_mem _ h)
    · rcases List.mem_cons.1 h with h | h
      · exact .inr (h ▸ List.mem_cons_self ..)
      · exact (ih h).imp id (List.mem_cons_of_mem _)

/-- A write keeps the numbers rising. -/
theorem ascending_tableInsert {t : List (Nat × α)} (h : Ascending t) (i : Nat) (v : α) :
    Ascending (tableInsert t i v) := by
  induction t with
  | nil => simp [tableInsert, Ascending]
  | cons p t ih =>
    obtain ⟨k, w⟩ := p
    simp only [tableInsert]
    rw [ascending_cons] at h
    split_ifs with h1 h2
    · refine ascending_cons.2 ⟨?_, ascending_cons.2 h⟩
      intro q m
      rcases List.mem_cons.1 m with rfl | m
      · exact h1
      · exact Nat.lt_trans h1 (h.1 q m)
    · exact ascending_cons.2 ⟨h2 ▸ h.1, h.2⟩
    · refine ascending_cons.2 ⟨?_, ih h.2⟩
      intro q m
      rcases mem_tableInsert m with rfl | m
      · simp; omega
      · exact h.1 q m

/-! ### Erasing -/

theorem mem_tableErase {t : List (Nat × α)} {i : Nat} {p : Nat × α} (h : p ∈ tableErase t i) : p ∈ t := by
  induction t with
  | nil => simp [tableErase] at h
  | cons q t ih =>
    obtain ⟨k, w⟩ := q
    simp only [tableErase] at h
    split_ifs at h
    · exact List.mem_cons_of_mem _ h
    · rcases List.mem_cons.1 h with rfl | h
      · exact List.mem_cons_self ..
      · exact List.mem_cons_of_mem _ (ih h)

/-- Erasing keeps the numbers rising. -/
theorem ascending_tableErase {t : List (Nat × α)} (h : Ascending t) (i : Nat) :
    Ascending (tableErase t i) := by
  induction t with
  | nil => exact h
  | cons p t ih =>
    obtain ⟨k, w⟩ := p
    rw [ascending_cons] at h
    simp only [tableErase]
    split_ifs
    · exact h.2
    · exact ascending_cons.2 ⟨fun q m => h.1 q (mem_tableErase m), ih h.2⟩

/-- In rising numbers, an erased number reads as not listed, and no other read differs. -/
theorem tableFind_tableErase {t : List (Nat × α)} (h : Ascending t) (i j : Nat) :
    tableFind (tableErase t i) j = if j = i then none else tableFind t j := by
  induction t with
  | nil => simp [tableErase, tableFind]
  | cons p t ih =>
    obtain ⟨k, w⟩ := p
    rw [ascending_cons] at h
    simp only [tableErase]
    by_cases hk : k = i
    · rw [if_pos hk]
      by_cases hj : j = i
      · rw [if_pos hj, hj]
        exact tableFind_none_of_lt fun q m => by have := h.1 q m; simp at this; omega
      · rw [if_neg hj]
        simp only [tableFind]
        rw [if_neg (by omega)]
    · rw [if_neg hk]
      simp only [tableFind, ih h.2]
      split_ifs <;> first | rfl | omega

/-! ### Tables that list only what differs from a default -/

variable [DecidableEq α]

/-- A record written reads back, and every other number reads as before. -/
theorem tableGet_tableSet {d : α} {t : List (Nat × α)} (h : Ascending t) (i j : Nat) (v : α) :
    tableGet d (tableSet d t i v) j = if j = i then v else tableGet d t j := by
  simp only [tableGet, tableSet]
  split_ifs with hv hj hj <;> simp [tableFind_tableErase h, tableFind_tableInsert, *]

omit [DecidableEq α] in
theorem ascending_sublist {t u : List (Nat × α)} (h : Ascending t) (s : List.Sublist u t) :
    Ascending u := by
  unfold Ascending at *
  exact List.Pairwise.sublist (s.map _) h

/-- A write keeps a table in its one form. -/
theorem listed_tableSet {d : α} {t : List (Nat × α)} (h : Listed d t) (i : Nat) (v : α) :
    Listed d (tableSet d t i v) := by
  simp only [tableSet]
  split_ifs with hv
  · exact ⟨ascending_tableErase h.1 i, fun p m => h.2 p (mem_tableErase m)⟩
  · refine ⟨ascending_tableInsert h.1 i v, fun p m => ?_⟩
    rcases mem_tableInsert m with rfl | m
    · exact hv
    · exact h.2 p m

omit [DecidableEq α] in
theorem ascending_eq_of_tableFind {t u : List (Nat × α)} (ht : Ascending t) (hu : Ascending u)
    (h : ∀ i, tableFind t i = tableFind u i) : t = u := by
  induction t generalizing u with
  | nil =>
    cases u with
    | nil => rfl
    | cons q u =>
      have := h q.1
      rw [tableFind_of_mem hu (v := q.2) (by simp)] at this
      simp [tableFind] at this
  | cons p t ih =>
    cases u with
    | nil =>
      have := h p.1
      rw [tableFind_of_mem ht (v := p.2) (by simp)] at this
      simp [tableFind] at this
    | cons q u =>
      have hp := h p.1
      rw [tableFind_of_mem ht (v := p.2) (by simp)] at hp
      have hq := h q.1
      rw [tableFind_of_mem hu (v := q.2) (by simp)] at hq
      have mp := tableFind_mem hp.symm
      have mq := tableFind_mem hq
      rw [ascending_cons] at ht hu
      have e : p = q := by
        rcases List.mem_cons.1 mp with e | m
        · exact e
        · rcases List.mem_cons.1 mq with e | m'
          · exact e.symm
          · have a := hu.1 _ m
            have b := ht.1 _ m'
            simp at a b
            omega
      subst e
      congr 1
      refine ih ht.2 hu.2 fun i => ?_
      have hi := h i
      simp only [tableFind] at hi
      by_cases e : p.1 = i
      · subst e
        rw [tableFind_none_of_lt ht.1, tableFind_none_of_lt hu.1]
      · simpa [e] using hi

omit [DecidableEq α] in
/-- Equal reads make equal tables: the one form is one. -/
theorem listed_eq_of_tableGet {d : α} {t u : List (Nat × α)} (ht : Listed d t) (hu : Listed d u)
    (h : ∀ i, tableGet d t i = tableGet d u i) : t = u := by
  refine ascending_eq_of_tableFind ht.1 hu.1 fun i => ?_
  have hi := h i
  simp only [tableGet] at hi
  cases e : tableFind t i <;> cases f : tableFind u i <;> simp only [e, f, Option.getD] at hi
  · rfl
  · exact absurd hi.symm (hu.2 _ (tableFind_mem f))
  · exact absurd hi (ht.2 _ (tableFind_mem e))
  · rw [hi]

/-! ### Rewriting every listed record -/

omit [DecidableEq α] in
theorem tableFind_filterMap {t : List (Nat × α)} (f : Nat → α → Option α) (h : Ascending t) (i : Nat) :
    tableFind (t.filterMap fun p => (f p.1 p.2).map fun v => (p.1, v)) i =
      (tableFind t i).bind (f i) := by
  induction t with
  | nil => rfl
  | cons p t ih =>
    obtain ⟨k, w⟩ := p
    rw [ascending_cons] at h
    simp only [List.filterMap_cons, tableFind]
    cases e : f k w with
    | none =>
      simp only [Option.map_none, ih h.2]
      split_ifs with hk
      · subst hk
        simp [tableFind_none_of_lt h.1, e]
      · rfl
    | some v =>
      simp only [Option.map_some, tableFind, ih h.2]
      split_ifs with hk
      · subst hk
        simp [e]
      · rfl

/-- Every record of a rewritten table is the rewriting of its record, where the default stays as it is. -/
theorem tableGet_tableMap {d : α} {t : List (Nat × α)} (f : Nat → α → α) (h : Ascending t)
    (hd : ∀ i, f i d = d) (i : Nat) : tableGet d (tableMap d f t) i = f i (tableGet d t i) := by
  have e : tableMap d f t = t.filterMap fun p =>
      ((fun k w => if f k w = d then none else some (f k w)) p.1 p.2).map fun v => (p.1, v) := by
    simp only [tableMap]
    congr 1
    funext p
    split_ifs <;> rfl
  rw [tableGet, e, tableFind_filterMap (fun k w => if f k w = d then none else some (f k w)) h, tableGet]
  cases tableFind t i with
  | none => simp [hd]
  | some w =>
    simp only [Option.bind_some, Option.getD_some]
    split_ifs with hw
    · simp [hw]
    · rfl

/-- Rewriting keeps a table in its one form. -/
theorem listed_tableMap {d : α} {t : List (Nat × α)} (f : Nat → α → α) (h : Ascending t) :
    Listed d (tableMap d f t) := by
  constructor
  · unfold Ascending tableMap at *
    rw [List.pairwise_map] at *
    rw [List.pairwise_filterMap]
    refine h.imp fun {a b} hab p hp q hq => ?_
    split_ifs at hp hq
    all_goals simp only [Option.some.injEq] at hp hq
    subst hp hq
    exact hab
  · intro p m
    simp only [tableMap, List.mem_filterMap] at m
    obtain ⟨q, _, hq⟩ := m
    split_ifs at hq with hd
    simp only [Option.some.injEq] at hq
    subst hq
    exact hd

/-! ### Ascending lists of numbers -/

/-- A number added to a list of numbers is in it, with all it held. -/
theorem mem_setInsert (l : List Nat) (i j : Nat) : j ∈ setInsert l i ↔ j = i ∨ j ∈ l := by
  induction l with
  | nil => simp [setInsert]
  | cons k t ih =>
    simp only [setInsert]
    split_ifs with h1 h2
    · simp
    · subst h2; simp
    · simp only [List.mem_cons, ih]
      constructor
      · rintro (h | h | h) <;> simp [h]
      · rintro (h | h | h) <;> simp [h]

theorem mem_setInsertAll (s is : List Nat) (j : Nat) : j ∈ setInsertAll s is ↔ j ∈ is ∨ j ∈ s := by
  unfold setInsertAll
  induction is generalizing s with
  | nil => simp
  | cons i is ih =>
    simp only [List.foldl_cons, ih, mem_setInsert, List.mem_cons]
    constructor
    · rintro (h | h | h) <;> simp [h]
    · rintro ((h | h) | h) <;> simp [h]

/-- A number added to a rising list leaves it rising. -/
theorem rising_setInsert {l : List Nat} (h : l.Pairwise (· < ·)) (i : Nat) : (setInsert l i).Pairwise (· < ·) := by
  induction l with
  | nil => simp [setInsert]
  | cons k t ih =>
    obtain ⟨hk, ht⟩ := List.pairwise_cons.1 h
    simp only [setInsert]
    split_ifs with h1 h2
    · exact List.pairwise_cons.2 ⟨fun j hj => by
        rcases List.mem_cons.1 hj with rfl | hj
        · exact h1
        · exact h1.trans (hk j hj), h⟩
    · exact h
    · refine List.pairwise_cons.2 ⟨fun j hj => ?_, ih ht⟩
      rcases (mem_setInsert t i j).1 hj with rfl | hj
      · omega
      · exact hk j hj

theorem rising_setInsertAll {s : List Nat} (h : s.Pairwise (· < ·)) (is : List Nat) :
    (setInsertAll s is).Pairwise (· < ·) := by
  unfold setInsertAll
  induction is generalizing s with
  | nil => exact h
  | cons i is ih => exact ih (rising_setInsert h i)

end Sys2Proof.Machine
end

