-- ==== Sys2Proof/Laws/Flags.lean ====
section
/-! SUPPORT. What raising a notice, marking entries, disturbing a job and raising the events of an exclusion can
change (R75, R83, R87, R162, R175). -/

namespace Sys2Proof.Machine

/-! ### Notices -/

theorem noticeGet_noticeSet (f : NoticeFlags) (k j : NoticeKind) (b : Bool) :
    noticeGet (noticeSet f k b) j = if j = k then b else noticeGet f j := by
  cases k <;> cases j <;> rfl

/-- Raising a kind sets its flag on its link and changes no other flag and no other link. -/
theorem linkOf_raiseOn (l j : Link) (k : NoticeKind) (s : State) :
    linkOf (raiseOn l k s) j =
      if j = l then { linkOf s l with notices := noticeSet (linkOf s l).notices k true } else linkOf s j := by
  unfold raiseOn
  split_ifs with h
  · rw [h, linkOf_setLink_self]
  · exact linkOf_setLink_ne h ..

theorem raiseOn_raised (l : Link) (k : NoticeKind) (s : State) :
    noticeGet (linkOf (raiseOn l k s) l).notices k = true := by
  simp [linkOf_raiseOn, noticeGet_noticeSet]

/-- Raising a kind changes nothing on the links but pending notices. -/
theorem noticesOnly_raiseOn (l : Link) (k : NoticeKind) (s : State) : NoticesOnly s (raiseOn l k s) := by
  refine ⟨by simp, by simp, fun j => ?_⟩
  rw [linkOf_raiseOn]
  split_ifs with h
  · rw [h]
  · rfl

theorem NoticesOnly.refl (s : State) : NoticesOnly s s := ⟨rfl, rfl, fun _ => rfl⟩

theorem NoticesOnly.trans {s t u : State} (h : NoticesOnly s t) (g : NoticesOnly t u) : NoticesOnly s u :=
  ⟨g.1.trans h.1, g.2.1.trans h.2.1, fun l => by rw [g.2.2 l, h.2.2 l]⟩

/-! ### Replan flags -/

theorem mem_markEntries (es : List Nat) (s : State) (n : Nat) :
    n ∈ (markEntries es s).eval.replans ↔ n ∈ es ∨ n ∈ s.eval.replans :=
  mem_setInsertAll ..

theorem mem_entriesWithRecord (s : State) (p : ShareRec → Bool) (n : Nat) :
    n ∈ entriesWithRecord s p ↔ ∃ e, (n, e) ∈ s.book.entries ∧ nonTerminal e.state = true ∧
      ∃ r ∈ s.shares, r.entry = n ∧ p r = true := by
  simp only [entriesWithRecord, List.mem_map, List.mem_filter, Bool.and_eq_true, List.any_eq_true,
    beq_iff_eq, Prod.exists, exists_and_right, exists_eq_right]

theorem mem_uncoveredEntries (s : State) (n : Nat) :
    n ∈ uncoveredEntries s ↔ ∃ e, (n, e) ∈ s.book.entries ∧ nonTerminal e.state = true ∧ e.uncovered ≠ 0 := by
  simp [uncoveredEntries, and_assoc]

/-- Marking the entries with a record on some units sets the flags of exactly those entries. -/
theorem newlyMarked_markOnUnits (p : Nat → Bool) (s : State) :
    NewlyMarked s (markOnUnits p s) (fun n _ => ∃ r ∈ s.shares, r.entry = n ∧ p r.unit = true) := by
  intro n
  simp only [markOnUnits, mem_markEntries, mem_entriesWithRecord]
  exact or_comm

/-- A contribution-gained event marks the entries with uncovered W. -/
theorem newlyMarked_contributionGained (s : State) :
    NewlyMarked s (contributionGained s) (fun _ e => e.uncovered ≠ 0) := by
  intro n
  simp only [contributionGained, mem_markEntries, mem_uncoveredEntries]
  exact or_comm

/-! ### The disturbed mark -/

/-- Disturbing a job changes nothing but the mark of the job in flight. -/
theorem disturb_eq (p : Nat → Bool) (s : State) :
    disturb p s = { s with eval := { s.eval with
      job := s.eval.job.map fun j => { j with disturbed := j.disturbed || (plannedUnits j.plan).any p } } } := by
  unfold disturb
  cases h : s.eval.job <;> simp
  rw [← h]

/-- Nothing but the flags and the job's mark differs in the Evaluator after a mark and a disturbance. -/
theorem marksOnly_disturb_mark (p q : Nat → Bool) (s : State) :
    MarksOnly s (disturb p (markOnUnits q s)) := by
  rw [disturb_eq]
  refine ⟨rfl, ?_⟩
  simp [markOnUnits, Function.comp_def]

theorem disturb_replans (p : Nat → Bool) (s : State) : (disturb p s).eval.replans = s.eval.replans := by
  rw [disturb_eq]

/-- Marking entries keeps the replan-pending set rising (log 17). -/
theorem rising_markEntries {s : State} (h : s.eval.replans.Pairwise (· < ·)) (es : List Nat) :
    (markEntries es s).eval.replans.Pairwise (· < ·) := rising_setInsertAll h es

/-- A disturbance on units is the event of R87 on them. -/
theorem disturbs_disturb (p : Nat → Bool) (s : State) : Disturbs s (disturb p s) p := by
  rw [Disturbs, disturb_eq]
  rfl

/-! ### CHANNEL -/

/-- A channel's CHANNEL event changes nothing but pending notices, and raises its notice (R54, R176). -/
theorem channelRaised_raiseChannel (c : Nat) (s : State) :
    ChannelRaised s (raiseChannel c s) c ∧ NoticesOnly s (raiseChannel c s) ∧
      { raiseChannel c s with links := s.links } = s := by
  have touches (m : UnitMap) : mapTouches m c = true ↔ ∃ d < 512, permitted m (512 * c + d) = true := by
    simp [mapTouches, unitIndex, Config.spanUnits, Nat.mul_comm c]
  have raised (b : Bool) (l : Link) (t : State) :
      NoticesOnly t (if b then raiseOn l .channel t else t) := by
    split_ifs
    · exact noticesOnly_raiseOn ..
    · exact .refl t
  unfold raiseChannel
  refine ⟨?_, ?_, ?_⟩
  · simp only [ChannelRaised, ← touches]
    cases ha : mapTouches s.links.mapA c <;> cases hb : mapTouches s.links.mapB c <;>
      simp [raiseOn, setLink, linkOf, noticeSet, ha, hb]
  · exact .trans (noticesOnly_raiseOn ..) (.trans (raised ..) (raised ..))
  · cases ha : mapTouches s.links.mapA c <;> cases hb : mapTouches s.links.mapB c <;>
      simp [raiseOn, setLink, ha, hb]

end Sys2Proof.Machine
end

