-- ==== Sys2Proof/Laws/Operands.lean ====
section
/-! SUPPORT. Fields on the wire: what the bytes of a number read back as, and the widths of fields (11). -/

namespace Sys2Proof.Machine

@[simp] theorem leBytes_length (n v : Nat) : (leBytes n v).length = n := by
  induction n generalizing v with
  | zero => rfl
  | succ n ih => simp [leBytes, ih]

@[simp] theorem putU_length (n v : Nat) : (putU n v).length = n := leBytes_length ..

@[simp] theorem putS_length (n : Nat) (v : Int) : (putS n v).length = n := leBytes_length ..

theorem natOfBytes_lt (bs : List Byte) : natOfBytes bs < 256 ^ bs.length := by
  induction bs with
  | nil => simp [natOfBytes]
  | cons b t ih =>
    have := b.isLt
    simp only [natOfBytes, List.length_cons, pow_succ]
    omega

/-- A field of `n` bytes reads as less than 256 to the n. -/
theorem readU_lt (c : List Byte) (offset n : Nat) : readU c offset n < 256 ^ n := by
  refine lt_of_lt_of_le (natOfBytes_lt _) (Nat.pow_le_pow_right (by decide) ?_)
  simp

/-- The bytes of a number read back as its low bytes. -/
theorem natOfBytes_leBytes (n v : Nat) : natOfBytes (leBytes n v) = v % 256 ^ n := by
  induction n generalizing v with
  | zero => simp [leBytes, natOfBytes, Nat.mod_one]
  | succ n ih =>
    simp only [leBytes, natOfBytes, ih, BitVec.toNat_ofNat]
    rw [show 256 ^ (n + 1) = 256 * 256 ^ n from Nat.pow_succ', Nat.mod_mul]

/-- A value that fits its field reads back as itself, wherever the field stands. -/
theorem readU_putU {n v : Nat} (h : v < 256 ^ n) (before after : List Byte) :
    readU (before ++ putU n v ++ after) before.length n = v := by
  have : ((before ++ putU n v ++ after).drop before.length).take n = putU n v := by
    rw [List.append_assoc, List.drop_left, List.take_left' (putU_length n v)]
  rw [readU, this, putU, if_pos h, natOfBytes_leBytes, Nat.mod_eq_of_lt h]

end Sys2Proof.Machine
end

