-- ==== Sys2Proof/Laws/Plans.lean ====
section
/-! SUPPORT. What the Evaluator's plans can be: the least over a range, the relief of a record, and what a walk
keeps at every unit it visits (R94, R95, R98, R101, R113). -/

namespace Sys2Proof.Machine

/-! ### The least over a range -/

theorem foldl_min_spec (l : List Nat) (h : Nat → Nat) (m : Nat) :
    l.foldl (fun m k => min m (h k)) m ≤ m ∧ (∀ k ∈ l, l.foldl (fun m k => min m (h k)) m ≤ h k) ∧
      (l.foldl (fun m k => min m (h k)) m = m ∨ ∃ k ∈ l, l.foldl (fun m k => min m (h k)) m = h k) := by
  induction l generalizing m with
  | nil => simp
  | cons a t ih =>
    obtain ⟨a1, a2, a3⟩ := ih (min m (h a))
    simp only [List.foldl_cons, List.mem_cons, forall_eq_or_imp, exists_eq_or_imp]
    refine ⟨by omega, ⟨by omega, a2⟩, ?_⟩
    rcases a3 with e | e
    · rw [e]
      omega
    · exact .inr (.inr e)

/-- The least over a range is at most the figure of each slot, and it is the figure of one of them. -/
theorem leastOver_spec (first count : Nat) (g : Nat → Nat) (hc : 1 ≤ count) :
    (∀ t, first ≤ t → t < first + count → leastOver first count g ≤ g t) ∧
      ∃ t, first ≤ t ∧ t < first + count ∧ leastOver first count g = g t := by
  obtain ⟨n, rfl⟩ : ∃ n, count = n + 1 := ⟨count - 1, by omega⟩
  obtain ⟨a1, a2, a3⟩ := foldl_min_spec (List.range n) (fun k => g (first + k + 1)) (g first)
  refine ⟨fun t h1 h2 => ?_, ?_⟩
  · by_cases ht : t = first
    · exact ht ▸ a1
    · have := a2 (t - first - 1) (List.mem_range.2 (by omega))
      rwa [show first + (t - first - 1) + 1 = t by omega] at this
  · rcases a3 with e | ⟨k, hk, e⟩
    · exact ⟨first, by omega, by omega, e⟩
    · exact ⟨first + k + 1, by omega, by have := List.mem_range.1 hk; omega, e⟩

/-! ### What a unit can offer -/

/-- A unit that offers anything contributes, and offers a multiple of 10 W of at least q (R93). -/
theorem offerable_spec (f : Frozen) (p : Product) (u : FrozenUnit) (recs : List ShareRec) (t : Nat) :
    offerable f p u recs t % 10 = 0 ∧ (offerable f p u recs t ≠ 0 → u.contributing = true) := by
  have m10 (c : DirClass → Bool) (e w k T : Nat) : offerableFrom f c recs e w k T t % 10 = 0 := by
    simp [offerableFrom]
  simp only [offerable]
  split_ifs with h
  · simp
  · refine ⟨?_, fun _ => by simp_all⟩
    cases p <;> simp only [offerableUp, offerableDown, m10]
    rcases min_choice (offerableFrom f countsUp recs _ u.pd u.confidence (enduranceOf f.endurance .fsr) t)
      (offerableFrom f countsDown recs _ u.pc u.confidence (enduranceOf f.endurance .fsr) t) with e | e <;>
      rw [e] <;> apply m10

/-- A unit with a range offerable contributes (R94). -/
theorem contributing_of_rangeOfferable {f : Frozen} {shares : List ShareRec} {p : Product} {first count i : Nat}
    (h : rangeOfferable f shares p first count i ≠ 0) : (frozenUnit f i).contributing = true := by
  by_cases hc : 1 ≤ count
  · obtain ⟨_, t, _, _, e⟩ := leastOver_spec first count
      (offerable f p (frozenUnit f i) (shares.filter fun r => r.unit == i)) hc
    simp only [rangeOfferable] at h
    rw [e] at h
    exact (offerable_spec ..).2 h
  · obtain rfl : count = 0 := by omega
    simp [rangeOfferable, leastOver] at h

/-! ### The walk -/

/-- What a walk to a target keeps at every unit: the target is what is left and what is placed, and each power
placed is a multiple of 10 W of at least q on a contributing unit; no more new records than free numbers. -/
def WalkKeeps (f : Frozen) (k : WalkTask) (target : Nat) (w : Walk) : Prop :=
  w.remaining + (w.fresh.map Prod.snd).sum + (w.enlarged.map Enlargement.add).sum = target ∧
    w.fresh.length ≤ k.free ∧ (k.entry = none → w.enlarged = []) ∧
    (∀ q ∈ w.fresh, f.minShare ≤ q.2 ∧ q.2 % 10 = 0 ∧ (frozenUnit f q.1).contributing = true) ∧
    ∀ g ∈ w.enlarged, f.minShare ≤ g.add ∧ g.add % 10 = 0 ∧ (frozenUnit f g.unit).contributing = true

theorem walkPower_spec (f : Frozen) (shares : List ShareRec) (k : WalkTask) (w : Walk) (i : Nat) :
    walkPower f shares k w i ≤ w.remaining ∧ walkPower f shares k w i % 10 = 0 ∧
      (walkPower f shares k w i ≠ 0 → (frozenUnit f i).contributing = true) := by
  simp only [walkPower]
  refine ⟨by omega, by omega, fun h => ?_⟩
  apply contributing_of_rangeOfferable (f := f) (shares := shares) (p := k.product) (first := k.first)
    (count := k.count)
  intro e
  rw [e] at h
  simp at h

theorem walkUnit_keeps {f : Frozen} {k : WalkTask} {target : Nat} {w : Walk} (shares : List ShareRec) (i : Nat)
    (h : WalkKeeps f k target w) : WalkKeeps f k target (walkUnit f shares k w i) := by
  obtain ⟨h1, h2, h3, h4, h5⟩ := h
  obtain ⟨p1, p2, p3⟩ := walkPower_spec f shares k w i
  have same : WalkKeeps f k target w := ⟨h1, h2, h3, h4, h5⟩
  unfold walkUnit
  dsimp only
  refine iteInduction (fun _ => same) fun _ => iteInduction (fun _ => same) fun _ =>
    iteInduction (fun _ => same) fun c => ?_
  have placed : f.minShare ≤ walkPower f shares k w i ∧ walkPower f shares k w i % 10 = 0 ∧
      (frozenUnit f i).contributing = true := ⟨by omega, p2, p3 (by omega)⟩
  cases hm : overlapping k shares i with
  | cons r t =>
    refine ⟨?_, h2, fun he => ?_, h4, ?_⟩
    · simp only [walkPlaced, List.map_append, List.map_cons, List.map_nil, List.sum_append, List.sum_cons,
        List.sum_nil]
      omega
    · have : r ∈ overlapping k shares i := by rw [hm]; simp
      simp [overlapping, he] at this
    · intro g hg
      simp only [walkPlaced, List.mem_append, List.mem_singleton] at hg
      rcases hg with hg | rfl
      · exact h5 g hg
      · exact placed
  | nil =>
    refine iteInduction (fun _ => same) fun d => ⟨?_, ?_, h3, ?_, h5⟩
    · simp only [walkPlaced, List.map_append, List.map_cons, List.map_nil, List.sum_append, List.sum_cons,
        List.sum_nil]
      omega
    · simp only [walkPlaced, List.length_append, List.length_singleton]
      omega
    · intro q hq
      simp only [walkPlaced, List.mem_append, List.mem_singleton] at hq
      rcases hq with hq | rfl
      · exact h4 q hq
      · exact placed

/-- A walk places no more than its target, in multiples of 10 W of at least q, on contributing units. -/
theorem walk_keeps (f : Frozen) (shares : List ShareRec) (k : WalkTask) (target : Nat) :
    WalkKeeps f k target (walk f shares k target) := by
  unfold walk
  generalize walkOrder f = is
  have base : WalkKeeps f k target
      { remaining := target, used := [], fresh := [], enlarged := [], lastUnit := none, stopped := false } := by
    simp [WalkKeeps]
  revert base
  generalize (Walk.mk target [] [] [] none false) = w
  induction is generalizing w with
  | nil => exact id
  | cons i t ih => exact fun h => ih _ (walkUnit_keeps shares i h)

/-! ### The relief of a record -/

/-- The relief of a record is the least multiple of 10 W below its power that leaves no over-commitment, or its
whole power (R113). -/
theorem reliefOf_spec (f : Frozen) (shares : List ShareRec) (n : Nat) (r : ShareRec) :
    reliefOf f shares n r ≤ r.power ∧
      (reliefOf f shares n r < r.power →
        reliefOf f shares n r % 10 = 0 ∧ overWith f shares n r (reliefOf f shares n r) = false) ∧
      ∀ d, d < reliefOf f shares n r → d % 10 = 0 → overWith f shares n r d = true := by
  unfold reliefOf
  cases h : ((List.range (r.power / 10 + 1)).map fun k => 10 * k).find? fun d =>
      decide (d < r.power) && !overWith f shares n r d with
  | none =>
    simp only [Option.getD_none, le_refl, lt_irrefl, false_implies, true_and]
    intro d hd h10
    have := List.find?_eq_none.1 h d (List.mem_map.2 ⟨d / 10, List.mem_range.2 (by omega), by omega⟩)
    simpa [hd] using this
  | some d =>
    simp only [Option.getD_some]
    obtain ⟨hp, as, bs, e, hb⟩ := List.find?_eq_some_iff_append.1 h
    simp only [Bool.and_eq_true, decide_eq_true_eq, Bool.not_eq_true'] at hp
    have hmem : d ∈ (List.range (r.power / 10 + 1)).map fun k => 10 * k := List.mem_of_find?_eq_some h
    obtain ⟨k, _, rfl⟩ := List.mem_map.1 hmem
    refine ⟨hp.1.le, fun _ => ⟨by omega, hp.2⟩, fun d' hd' h10 => ?_⟩
    have hin : d' ∈ as := by
      have hin' : d' ∈ as ++ 10 * k :: bs := e ▸ List.mem_map.2 ⟨d' / 10, List.mem_range.2 (by omega), by omega⟩
      have hs : (as ++ 10 * k :: bs).Pairwise (· < ·) := by
        rw [← e]
        exact List.Pairwise.map _ (fun a b h => by omega) (List.pairwise_lt_range)
      rcases List.mem_append.1 hin' with h | h
      · exact h
      · rcases List.mem_cons.1 h with rfl | h
        · omega
        · have := (List.pairwise_cons.1 (List.pairwise_append.1 hs).2.1).1 d' h
          omega
    have := hb d' hin
    simpa [show d' < r.power by omega] using this

/-- A record's unit is over-committed with the record's power lowered: in some slot from `n` on within the record,
in a direction its class counts in, the energy or the power of its records is above what the unit has (R113). -/
theorem overWith_iff (f : Frozen) (shares : List ShareRec) (n : Nat) (r : ShareRec) (d : Nat) :
    overWith f shares n r d = true ↔ ∃ t, n ≤ t ∧ r.first ≤ t ∧ t ≤ r.last ∧
      overCommitted f (frozenUnit f r.unit) r.cls ((shares.filter fun x => x.unit == r.unit).map fun x =>
        if x.num = r.num then { x with power := x.power - d } else x) t = true := by
  simp only [overWith, List.any_eq_true, List.mem_range]
  constructor
  · rintro ⟨k, hk, h⟩
    exact ⟨max n r.first + k, by omega, by omega, by omega, h⟩
  · rintro ⟨t, h1, h2, h3, h⟩
    refine ⟨t - max n r.first, by omega, ?_⟩
    rwa [show max n r.first + (t - max n r.first) = t by omega]

end Sys2Proof.Machine
end

