-- ==== Sys2Proof/Laws/Requests.lean ====
section
/-! SUPPORT. What a received request can do: it is answered BUSY, refused by the checks of its frame, or
handed to the block that owns it (R167, R168). -/

namespace Sys2Proof.Machine

/-- A request handed on, by what its block gives back. -/
theorem handOn_eq (q : Request) (take : Link → List Byte → State → State × Reply) (l : Link) (tag : Byte)
    (c : List Byte) (s : State) :
    handOn q take l tag c s =
      match (take l c s).2 with
      | .answer code result => answered q l tag code result (take l c s).1
      | .waits => processing q l tag (take l c s).1 := rfl

@[simp] theorem linkOf_frameComplete_inProcess (l : Link) (s : State) :
    (linkOf (frameComplete l s) l).inProcess = (linkOf s l).inProcess := by
  simp [frameComplete]

@[simp] theorem mapOf_setLink (l k : Link) (r : LinkRec) (s : State) :
    mapOf (setLink l r s) k = mapOf s k := by
  cases l <;> cases k <;> rfl

@[simp] theorem frameRefusal_setLink (q : Request) (l k : Link) (r : LinkRec) (c : List Byte) (s : State) :
    frameRefusal q l c (setLink k r s) = frameRefusal q l c s := by
  simp only [frameRefusal, mapOf_setLink]

@[simp] theorem frameRefusal_frameComplete (q : Request) (l k : Link) (c : List Byte) (s : State) :
    frameRefusal q l c (frameComplete k s) = frameRefusal q l c s :=
  frameRefusal_setLink ..

/-- A request that no check of its frame refuses is handed to its block. -/
theorem receiveRequest_taken {q : Request} {l : Link} {c : List Byte} {s : State} (h : CanTake s l)
    (hr : frameRefusal q l c s = none) (take : Link → List Byte → State → State × Reply) (tag : Byte) :
    effect (receiveRequest q take l tag c) s =
      .next (settle (handOn q take l tag c (frameComplete l s))) := by
  simp [effect, receiveRequest, h.1, h.2, hr]

/-- A request that a check of its frame refuses is answered at once and is not in process. -/
theorem receiveRequest_refused {q : Request} {l : Link} {c : List Byte} {s : State} {code : AnswerCode}
    (h : CanTake s l) (hr : frameRefusal q l c s = some code)
    (take : Link → List Byte → State → State × Reply) (tag : Byte) :
    effect (receiveRequest q take l tag c) s =
      .next (settle (oweAnswer l tag code [] false (frameComplete l s))) := by
  simp [effect, receiveRequest, h.1, h.2, hr]

/-- A request that finds another in process is answered BUSY. -/
theorem receiveRequest_busy {l : Link} {s : State} (h : s.resetHeld = false)
    (hp : (linkOf s l).inProcess.isSome = true) (q : Request)
    (take : Link → List Byte → State → State × Reply) (tag : Byte) (c : List Byte) :
    effect (receiveRequest q take l tag c) s = .next (settle (oweBusy l tag (frameComplete l s))) := by
  simp [effect, receiveRequest, h, hp]

/-- A request of TL or GL is checked for its class and its length alone; UNITS has its span checked too. -/
theorem frameRefusal_master {q : Request} {l : Link} {c : List Byte} (s : State) (hl : l = .tl ∨ l = .gl)
    (ha : allowed q (classOf l) = true) (hc : c.length = contentsLength q)
    (hx : contentsRefusal c q = none) : frameRefusal q l c s = none := by
  rcases hl with rfl | rfl <;> simp [frameRefusal, ha, hc, hx, mapOf]

/-- A request of a fleet link is checked for its class, its length, its contents and its map. -/
theorem frameRefusal_fleet {q : Request} {l : Link} {c : List Byte} {s : State} {m : UnitMap}
    (hm : mapOf s l = some m) (ha : allowed q (classOf l) = true) (hc : c.length = contentsLength q)
    (hx : contentsRefusal c q = none) (hn : namesPermitted m c q = true) : frameRefusal q l c s = none := by
  simp [frameRefusal, ha, hc, hx, hm, hn]

end Sys2Proof.Machine
end

