-- ==== Sys2Proof/Laws/Settle.lean ====
section
/-! SUPPORT. What the end of a step can do, one lemma for each of its three services, and the parts of the
state that a step's end leaves as they are (R3, R32, R84, R170; logs 5 and 30). -/

namespace Sys2Proof.Machine

/-! ### The channel lines -/

/-- A line is left as it is, or, being FREE, it takes the first frame that waits. -/
theorem kickLine_cases (s : State) (c : Nat) :
    kickLine s c = s ∨ ∃ frame owner r wire, (channelOf s c).line = .free ∧
      nextFrame (channelOf s c) = some (frame, owner, r) ∧
      kickLine s c = setChannel c { r with line := .sending frame owner wire } s := by
  unfold kickLine
  split_ifs with h
  · cases hn : nextFrame (channelOf s c) with
    | none => exact .inl rfl
    | some p => exact .inr ⟨p.1, p.2.1, p.2.2, _, h, rfl, rfl⟩
  · exact .inl rfl

theorem kickLine_frame (s : State) (c : Nat) :
    kickLine s c = { s with ctl := { s.ctl with channels := (kickLine s c).ctl.channels } } := by
  rcases kickLine_cases s c with h | ⟨_, _, _, _, _, _, h⟩
  · rw [h]
  · rw [h]
    rfl

/-- The lines' service changes nothing but channel records. -/
theorem kickLines_frame (s : State) :
    kickLines s = { s with ctl := { s.ctl with channels := (kickLines s).ctl.channels } } := by
  unfold kickLines
  generalize List.range 8 = cs
  induction cs generalizing s with
  | nil => rfl
  | cons c cs ih =>
    rw [List.foldl_cons, ih, kickLine_frame s c]

/-! ### The arbiter -/

theorem arbiterLoop_frame (fuel : Nat) (s : State) :
    arbiterLoop fuel s = { s with eval := { s.eval with
      job := (arbiterLoop fuel s).eval.job, slot := (arbiterLoop fuel s).eval.slot
      replans := (arbiterLoop fuel s).eval.replans
      runCount := (arbiterLoop fuel s).eval.runCount } } := by
  induction fuel generalizing s with
  | zero => rfl
  | succ fuel ih =>
    simp only [arbiterLoop]
    cases tlTurn s with
    | some r => cases r <;> rfl
    | none =>
      cases hr : s.eval.replans with
      | nil => simp
      | cons n rest =>
        dsimp only
        cases replanEntry (takeFlag rest s) n with
        | some e => rfl
        | none => exact ih (takeFlag rest s)

/-- The arbiter changes nothing but the job, the TL slot, the flags and the run count. -/
theorem arbitrate_frame (s : State) :
    arbitrate s = { s with eval := { s.eval with
      job := (arbitrate s).eval.job, slot := (arbitrate s).eval.slot
      replans := (arbitrate s).eval.replans, runCount := (arbitrate s).eval.runCount } } := by
  unfold arbitrate
  cases h : s.eval.job with
  | some j => rfl
  | none => exact arbiterLoop_frame _ s

/-! ### The transmitters -/

/-- A transmitter's service changes nothing but its own link's record, and the change list that an ENTRY
notice empties. -/
theorem kickTx_cases (l : Link) (s : State) :
    kickTx l s = s ∨ ∃ r, kickTx l s = setLink l r s ∨ kickTx l s = emptyChanges (setLink l r s) := by
  simp only [kickTx]
  split_ifs
  · cases (linkOf s l).telegram with
    | some a => exact .inr ⟨_, .inl rfl⟩
    | none =>
      cases (linkOf s l).answers with
      | cons a rest => exact .inr ⟨_, .inl rfl⟩
      | nil =>
        cases (linkOf s l).busy with
        | some a => exact .inr ⟨_, .inl rfl⟩
        | none =>
          dsimp only
          cases firstNotice (linkOf s l).notices with
          | none => exact .inl rfl
          | some k =>
            simp only [sendNotice]
            split_ifs
            · exact .inr ⟨_, .inr rfl⟩
            · exact .inr ⟨_, .inl rfl⟩
  · exact .inl rfl


/-! ### What each service leaves as it is -/

@[simp] theorem kickTx_time (l : Link) (s : State) : (kickTx l s).time = s.time := by
  rcases kickTx_cases l s with h | ⟨r, h | h⟩ <;> rw [h] <;> simp [emptyChanges]

@[simp] theorem kickTx_fleet (l : Link) (s : State) : (kickTx l s).fleet = s.fleet := by
  rcases kickTx_cases l s with h | ⟨r, h | h⟩ <;> rw [h] <;> simp [emptyChanges]

@[simp] theorem kickTx_ctl (l : Link) (s : State) : (kickTx l s).ctl = s.ctl := by
  rcases kickTx_cases l s with h | ⟨r, h | h⟩ <;> rw [h] <;> simp [emptyChanges]

@[simp] theorem kickTx_eval (l : Link) (s : State) : (kickTx l s).eval = s.eval := by
  rcases kickTx_cases l s with h | ⟨r, h | h⟩ <;> rw [h] <;> simp [emptyChanges]

@[simp] theorem kickTx_shares (l : Link) (s : State) : (kickTx l s).shares = s.shares := by
  rcases kickTx_cases l s with h | ⟨r, h | h⟩ <;> rw [h] <;> simp [emptyChanges]

@[simp] theorem kickTx_disp (l : Link) (s : State) : (kickTx l s).disp = s.disp := by
  rcases kickTx_cases l s with h | ⟨r, h | h⟩ <;> rw [h] <;> simp [emptyChanges]

@[simp] theorem kickTx_track (l : Link) (s : State) : (kickTx l s).track = s.track := by
  rcases kickTx_cases l s with h | ⟨r, h | h⟩ <;> rw [h] <;> simp [emptyChanges]

@[simp] theorem kickTx_margin (l : Link) (s : State) : (kickTx l s).margin = s.margin := by
  rcases kickTx_cases l s with h | ⟨r, h | h⟩ <;> rw [h] <;> simp [emptyChanges]

@[simp] theorem kickTx_queue (l : Link) (s : State) : (kickTx l s).queue = s.queue := by
  rcases kickTx_cases l s with h | ⟨r, h | h⟩ <;> rw [h] <;> simp [emptyChanges]

@[simp] theorem kickTx_resetHeld (l : Link) (s : State) : (kickTx l s).resetHeld = s.resetHeld := by
  rcases kickTx_cases l s with h | ⟨r, h | h⟩ <;> rw [h] <;> simp [emptyChanges]

@[simp] theorem kickTx_freeTick (l : Link) (s : State) : (kickTx l s).freeTick = s.freeTick := by
  rcases kickTx_cases l s with h | ⟨r, h | h⟩ <;> rw [h] <;> simp [emptyChanges]

@[simp] theorem kickTx_pending (l : Link) (s : State) : (kickTx l s).pending = s.pending := by
  rcases kickTx_cases l s with h | ⟨r, h | h⟩ <;> rw [h] <;> simp [emptyChanges]

@[simp] theorem kickTx_book_entries (l : Link) (s : State) : (kickTx l s).book.entries = s.book.entries := by
  rcases kickTx_cases l s with h | ⟨r, h | h⟩ <;> rw [h] <;> simp [emptyChanges]

@[simp] theorem kickTx_book_endurance (l : Link) (s : State) : (kickTx l s).book.endurance = s.book.endurance := by
  rcases kickTx_cases l s with h | ⟨r, h | h⟩ <;> rw [h] <;> simp [emptyChanges]

@[simp] theorem kickTx_links_mapA (l : Link) (s : State) : (kickTx l s).links.mapA = s.links.mapA := by
  rcases kickTx_cases l s with h | ⟨r, h | h⟩ <;> rw [h] <;> simp [emptyChanges]

@[simp] theorem kickTx_links_mapB (l : Link) (s : State) : (kickTx l s).links.mapB = s.links.mapB := by
  rcases kickTx_cases l s with h | ⟨r, h | h⟩ <;> rw [h] <;> simp [emptyChanges]

/-- A link's transmitter at the end of a step is served, or, in the step of an expiry of the mark watch, its
TIME_MARK notice waits for the mark that falls together with it (log 30). -/
theorem serveLink_cases (expiry : Bool) (l : Link) (s : State) :
    (expiry = true ∧ noticeWaits l s = true ∧ serveLink expiry l s = s) ∨
      ((expiry = false ∨ noticeWaits l s = false) ∧ serveLink expiry l s = kickTx l s) := by
  unfold serveLink
  cases expiry <;> cases h : noticeWaits l s <;> simp

/-- In every step but an expiry of the mark watch every transmitter is served. -/
@[simp] theorem serveLink_false (l : Link) (s : State) : serveLink false l s = kickTx l s := by
  simp [serveLink]

theorem settle_eq (s : State) :
    settle s = kickTx .fb (kickTx .fa (kickTx .gl (kickTx .tl (arbitrate (kickLines s))))) := by
  rw [settle, settleWith, serveLink_false, serveLink_false]

@[simp] theorem serveLink_time (b : Bool) (l : Link) (s : State) : (serveLink b l s).time = s.time := by
  rcases serveLink_cases b l s with ⟨_, _, h⟩ | ⟨_, h⟩ <;> simp [h]

@[simp] theorem serveLink_fleet (b : Bool) (l : Link) (s : State) : (serveLink b l s).fleet = s.fleet := by
  rcases serveLink_cases b l s with ⟨_, _, h⟩ | ⟨_, h⟩ <;> simp [h]

@[simp] theorem serveLink_ctl (b : Bool) (l : Link) (s : State) : (serveLink b l s).ctl = s.ctl := by
  rcases serveLink_cases b l s with ⟨_, _, h⟩ | ⟨_, h⟩ <;> simp [h]

@[simp] theorem serveLink_eval (b : Bool) (l : Link) (s : State) : (serveLink b l s).eval = s.eval := by
  rcases serveLink_cases b l s with ⟨_, _, h⟩ | ⟨_, h⟩ <;> simp [h]

@[simp] theorem serveLink_shares (b : Bool) (l : Link) (s : State) : (serveLink b l s).shares = s.shares := by
  rcases serveLink_cases b l s with ⟨_, _, h⟩ | ⟨_, h⟩ <;> simp [h]

@[simp] theorem serveLink_disp (b : Bool) (l : Link) (s : State) : (serveLink b l s).disp = s.disp := by
  rcases serveLink_cases b l s with ⟨_, _, h⟩ | ⟨_, h⟩ <;> simp [h]

@[simp] theorem serveLink_track (b : Bool) (l : Link) (s : State) : (serveLink b l s).track = s.track := by
  rcases serveLink_cases b l s with ⟨_, _, h⟩ | ⟨_, h⟩ <;> simp [h]

@[simp] theorem serveLink_margin (b : Bool) (l : Link) (s : State) : (serveLink b l s).margin = s.margin := by
  rcases serveLink_cases b l s with ⟨_, _, h⟩ | ⟨_, h⟩ <;> simp [h]

@[simp] theorem serveLink_queue (b : Bool) (l : Link) (s : State) : (serveLink b l s).queue = s.queue := by
  rcases serveLink_cases b l s with ⟨_, _, h⟩ | ⟨_, h⟩ <;> simp [h]

@[simp] theorem serveLink_resetHeld (b : Bool) (l : Link) (s : State) : (serveLink b l s).resetHeld = s.resetHeld := by
  rcases serveLink_cases b l s with ⟨_, _, h⟩ | ⟨_, h⟩ <;> simp [h]

@[simp] theorem serveLink_freeTick (b : Bool) (l : Link) (s : State) : (serveLink b l s).freeTick = s.freeTick := by
  rcases serveLink_cases b l s with ⟨_, _, h⟩ | ⟨_, h⟩ <;> simp [h]

@[simp] theorem serveLink_pending (b : Bool) (l : Link) (s : State) : (serveLink b l s).pending = s.pending := by
  rcases serveLink_cases b l s with ⟨_, _, h⟩ | ⟨_, h⟩ <;> simp [h]

@[simp] theorem serveLink_book_entries (b : Bool) (l : Link) (s : State) : (serveLink b l s).book.entries = s.book.entries := by
  rcases serveLink_cases b l s with ⟨_, _, h⟩ | ⟨_, h⟩ <;> simp [h]

@[simp] theorem serveLink_book_endurance (b : Bool) (l : Link) (s : State) : (serveLink b l s).book.endurance = s.book.endurance := by
  rcases serveLink_cases b l s with ⟨_, _, h⟩ | ⟨_, h⟩ <;> simp [h]

@[simp] theorem serveLink_links_mapA (b : Bool) (l : Link) (s : State) : (serveLink b l s).links.mapA = s.links.mapA := by
  rcases serveLink_cases b l s with ⟨_, _, h⟩ | ⟨_, h⟩ <;> simp [h]

@[simp] theorem serveLink_links_mapB (b : Bool) (l : Link) (s : State) : (serveLink b l s).links.mapB = s.links.mapB := by
  rcases serveLink_cases b l s with ⟨_, _, h⟩ | ⟨_, h⟩ <;> simp [h]

@[simp] theorem arbitrate_time (s : State) : (arbitrate s).time = s.time := by
  rw [arbitrate_frame]

@[simp] theorem arbitrate_fleet (s : State) : (arbitrate s).fleet = s.fleet := by
  rw [arbitrate_frame]

@[simp] theorem arbitrate_book (s : State) : (arbitrate s).book = s.book := by
  rw [arbitrate_frame]

@[simp] theorem arbitrate_shares (s : State) : (arbitrate s).shares = s.shares := by
  rw [arbitrate_frame]

@[simp] theorem arbitrate_disp (s : State) : (arbitrate s).disp = s.disp := by
  rw [arbitrate_frame]

@[simp] theorem arbitrate_track (s : State) : (arbitrate s).track = s.track := by
  rw [arbitrate_frame]

@[simp] theorem arbitrate_margin (s : State) : (arbitrate s).margin = s.margin := by
  rw [arbitrate_frame]

@[simp] theorem arbitrate_queue (s : State) : (arbitrate s).queue = s.queue := by
  rw [arbitrate_frame]

@[simp] theorem arbitrate_links (s : State) : (arbitrate s).links = s.links := by
  rw [arbitrate_frame]

@[simp] theorem arbitrate_resetHeld (s : State) : (arbitrate s).resetHeld = s.resetHeld := by
  rw [arbitrate_frame]

@[simp] theorem arbitrate_freeTick (s : State) : (arbitrate s).freeTick = s.freeTick := by
  rw [arbitrate_frame]

@[simp] theorem arbitrate_pending (s : State) : (arbitrate s).pending = s.pending := by
  rw [arbitrate_frame]

@[simp] theorem arbitrate_eval_start (s : State) : (arbitrate s).eval.start = s.eval.start := by
  rw [arbitrate_frame]

@[simp] theorem arbitrate_eval_holdback (s : State) : (arbitrate s).eval.holdback = s.eval.holdback := by
  rw [arbitrate_frame]

@[simp] theorem arbitrate_eval_minShare (s : State) : (arbitrate s).eval.minShare = s.eval.minShare := by
  rw [arbitrate_frame]

@[simp] theorem arbitrate_ctl (s : State) : (arbitrate s).ctl = s.ctl := by
  rw [arbitrate_frame]

@[simp] theorem kickLines_time (s : State) : (kickLines s).time = s.time := by
  rw [kickLines_frame]

@[simp] theorem kickLines_fleet (s : State) : (kickLines s).fleet = s.fleet := by
  rw [kickLines_frame]

@[simp] theorem kickLines_book (s : State) : (kickLines s).book = s.book := by
  rw [kickLines_frame]

@[simp] theorem kickLines_eval (s : State) : (kickLines s).eval = s.eval := by
  rw [kickLines_frame]

@[simp] theorem kickLines_shares (s : State) : (kickLines s).shares = s.shares := by
  rw [kickLines_frame]

@[simp] theorem kickLines_disp (s : State) : (kickLines s).disp = s.disp := by
  rw [kickLines_frame]

@[simp] theorem kickLines_track (s : State) : (kickLines s).track = s.track := by
  rw [kickLines_frame]

@[simp] theorem kickLines_margin (s : State) : (kickLines s).margin = s.margin := by
  rw [kickLines_frame]

@[simp] theorem kickLines_queue (s : State) : (kickLines s).queue = s.queue := by
  rw [kickLines_frame]

@[simp] theorem kickLines_links (s : State) : (kickLines s).links = s.links := by
  rw [kickLines_frame]

@[simp] theorem kickLines_resetHeld (s : State) : (kickLines s).resetHeld = s.resetHeld := by
  rw [kickLines_frame]

@[simp] theorem kickLines_freeTick (s : State) : (kickLines s).freeTick = s.freeTick := by
  rw [kickLines_frame]

@[simp] theorem kickLines_pending (s : State) : (kickLines s).pending = s.pending := by
  rw [kickLines_frame]

@[simp] theorem kickLines_ctl_period (s : State) : (kickLines s).ctl.period = s.ctl.period := by
  rw [kickLines_frame]

@[simp] theorem kickLines_ctl_replyTimeout (s : State) : (kickLines s).ctl.replyTimeout = s.ctl.replyTimeout := by
  rw [kickLines_frame]

@[simp] theorem kickLines_ctl_exchangeTimer (s : State) : (kickLines s).ctl.exchangeTimer = s.ctl.exchangeTimer := by
  rw [kickLines_frame]

@[simp] theorem kickLines_ctl_round (s : State) : (kickLines s).ctl.round = s.ctl.round := by
  rw [kickLines_frame]

@[simp] theorem kickLines_ctl_failedMask (s : State) : (kickLines s).ctl.failedMask = s.ctl.failedMask := by
  rw [kickLines_frame]

@[simp] theorem kickLines_ctl_overrun (s : State) : (kickLines s).ctl.overrun = s.ctl.overrun := by
  rw [kickLines_frame]

/-! ### What the end of a step leaves as it is -/

@[simp] theorem settleWith_time (b : Bool) (s : State) : (settleWith b s).time = s.time := by
  simp [settleWith]

@[simp] theorem settle_time (s : State) : (settle s).time = s.time := by rw [settle, settleWith_time]

@[simp] theorem settleWith_fleet (b : Bool) (s : State) : (settleWith b s).fleet = s.fleet := by
  simp [settleWith]

@[simp] theorem settle_fleet (s : State) : (settle s).fleet = s.fleet := by rw [settle, settleWith_fleet]

@[simp] theorem settleWith_shares (b : Bool) (s : State) : (settleWith b s).shares = s.shares := by
  simp [settleWith]

@[simp] theorem settle_shares (s : State) : (settle s).shares = s.shares := by rw [settle, settleWith_shares]

@[simp] theorem settleWith_disp (b : Bool) (s : State) : (settleWith b s).disp = s.disp := by
  simp [settleWith]

@[simp] theorem settle_disp (s : State) : (settle s).disp = s.disp := by rw [settle, settleWith_disp]

@[simp] theorem settleWith_track (b : Bool) (s : State) : (settleWith b s).track = s.track := by
  simp [settleWith]

@[simp] theorem settle_track (s : State) : (settle s).track = s.track := by rw [settle, settleWith_track]

@[simp] theorem settleWith_margin (b : Bool) (s : State) : (settleWith b s).margin = s.margin := by
  simp [settleWith]

@[simp] theorem settle_margin (s : State) : (settle s).margin = s.margin := by rw [settle, settleWith_margin]

@[simp] theorem settleWith_queue (b : Bool) (s : State) : (settleWith b s).queue = s.queue := by
  simp [settleWith]

@[simp] theorem settle_queue (s : State) : (settle s).queue = s.queue := by rw [settle, settleWith_queue]

@[simp] theorem settleWith_resetHeld (b : Bool) (s : State) : (settleWith b s).resetHeld = s.resetHeld := by
  simp [settleWith]

@[simp] theorem settle_resetHeld (s : State) : (settle s).resetHeld = s.resetHeld := by rw [settle, settleWith_resetHeld]

@[simp] theorem settleWith_freeTick (b : Bool) (s : State) : (settleWith b s).freeTick = s.freeTick := by
  simp [settleWith]

@[simp] theorem settle_freeTick (s : State) : (settle s).freeTick = s.freeTick := by rw [settle, settleWith_freeTick]

@[simp] theorem settleWith_pending (b : Bool) (s : State) : (settleWith b s).pending = s.pending := by
  simp [settleWith]

@[simp] theorem settle_pending (s : State) : (settle s).pending = s.pending := by rw [settle, settleWith_pending]

@[simp] theorem settleWith_book_entries (b : Bool) (s : State) : (settleWith b s).book.entries = s.book.entries := by
  simp [settleWith]

@[simp] theorem settle_book_entries (s : State) : (settle s).book.entries = s.book.entries := by rw [settle, settleWith_book_entries]

@[simp] theorem settleWith_book_endurance (b : Bool) (s : State) : (settleWith b s).book.endurance = s.book.endurance := by
  simp [settleWith]

@[simp] theorem settle_book_endurance (s : State) : (settle s).book.endurance = s.book.endurance := by rw [settle, settleWith_book_endurance]

@[simp] theorem settleWith_links_mapA (b : Bool) (s : State) : (settleWith b s).links.mapA = s.links.mapA := by
  simp [settleWith]

@[simp] theorem settle_links_mapA (s : State) : (settle s).links.mapA = s.links.mapA := by rw [settle, settleWith_links_mapA]

@[simp] theorem settleWith_links_mapB (b : Bool) (s : State) : (settleWith b s).links.mapB = s.links.mapB := by
  simp [settleWith]

@[simp] theorem settle_links_mapB (s : State) : (settle s).links.mapB = s.links.mapB := by rw [settle, settleWith_links_mapB]

@[simp] theorem settleWith_eval_start (b : Bool) (s : State) : (settleWith b s).eval.start = s.eval.start := by
  simp [settleWith]

@[simp] theorem settle_eval_start (s : State) : (settle s).eval.start = s.eval.start := by rw [settle, settleWith_eval_start]

@[simp] theorem settleWith_eval_holdback (b : Bool) (s : State) : (settleWith b s).eval.holdback = s.eval.holdback := by
  simp [settleWith]

@[simp] theorem settle_eval_holdback (s : State) : (settle s).eval.holdback = s.eval.holdback := by rw [settle, settleWith_eval_holdback]

@[simp] theorem settleWith_eval_minShare (b : Bool) (s : State) : (settleWith b s).eval.minShare = s.eval.minShare := by
  simp [settleWith]

@[simp] theorem settle_eval_minShare (s : State) : (settle s).eval.minShare = s.eval.minShare := by rw [settle, settleWith_eval_minShare]

@[simp] theorem settleWith_ctl_period (b : Bool) (s : State) : (settleWith b s).ctl.period = s.ctl.period := by
  simp [settleWith]

@[simp] theorem settle_ctl_period (s : State) : (settle s).ctl.period = s.ctl.period := by rw [settle, settleWith_ctl_period]

@[simp] theorem settleWith_ctl_replyTimeout (b : Bool) (s : State) : (settleWith b s).ctl.replyTimeout = s.ctl.replyTimeout := by
  simp [settleWith]

@[simp] theorem settle_ctl_replyTimeout (s : State) : (settle s).ctl.replyTimeout = s.ctl.replyTimeout := by rw [settle, settleWith_ctl_replyTimeout]

@[simp] theorem settleWith_ctl_exchangeTimer (b : Bool) (s : State) : (settleWith b s).ctl.exchangeTimer = s.ctl.exchangeTimer := by
  simp [settleWith]

@[simp] theorem settle_ctl_exchangeTimer (s : State) : (settle s).ctl.exchangeTimer = s.ctl.exchangeTimer := by rw [settle, settleWith_ctl_exchangeTimer]

@[simp] theorem settleWith_ctl_round (b : Bool) (s : State) : (settleWith b s).ctl.round = s.ctl.round := by
  simp [settleWith]

@[simp] theorem settle_ctl_round (s : State) : (settle s).ctl.round = s.ctl.round := by rw [settle, settleWith_ctl_round]

@[simp] theorem settleWith_ctl_failedMask (b : Bool) (s : State) : (settleWith b s).ctl.failedMask = s.ctl.failedMask := by
  simp [settleWith]

@[simp] theorem settle_ctl_failedMask (s : State) : (settle s).ctl.failedMask = s.ctl.failedMask := by rw [settle, settleWith_ctl_failedMask]

@[simp] theorem settleWith_ctl_overrun (b : Bool) (s : State) : (settleWith b s).ctl.overrun = s.ctl.overrun := by
  simp [settleWith]

@[simp] theorem settle_ctl_overrun (s : State) : (settle s).ctl.overrun = s.ctl.overrun := by rw [settle, settleWith_ctl_overrun]

end Sys2Proof.Machine
end

