-- ==== Sys2Proof/Laws/Shares.lean ====
section
/-! SUPPORT. What the Share Table's operations can do: free numbers, trims, joining and leaving (06). -/

namespace Sys2Proof.Machine

/-! ### Free record numbers (R104) -/

/-- The lowest free numbers are not in use, lie in the range searched, and rise strictly. -/
theorem lowestFree_spec (used : List Nat) (fuel n k : Nat) :
    (∀ m ∈ lowestFree used fuel n k, m ∉ used ∧ n ≤ m ∧ m < n + fuel) ∧
      (lowestFree used fuel n k).Pairwise (· < ·) ∧ (lowestFree used fuel n k).length ≤ k := by
  induction fuel generalizing n k with
  | zero => simp [lowestFree]
  | succ fuel ih =>
    cases k with
    | zero => simp [lowestFree]
    | succ k =>
      simp only [lowestFree]
      split_ifs with h
      · obtain ⟨a, b, c⟩ := ih (n + 1) (k + 1)
        exact ⟨fun m hm => ⟨(a m hm).1, by have := (a m hm).2; omega⟩, b, c⟩
      · obtain ⟨a, b, c⟩ := ih (n + 1) k
        refine ⟨fun m hm => ?_, ?_, by simpa using c⟩
        · rcases List.mem_cons.1 hm with rfl | hm
          · exact ⟨by simpa using h, by omega⟩
          · exact ⟨(a m hm).1, by have := (a m hm).2; omega⟩
        · exact List.pairwise_cons.2 ⟨fun m hm => by have := (a m hm).2.1; omega, b⟩

/-- The free numbers handed out are of the pool, not in use, and no number twice. -/
theorem freeNumbers_spec (rs : List ShareRec) (k : Nat) :
    (∀ m ∈ freeNumbers rs k, m < 32768 ∧ ∀ r ∈ rs, r.num ≠ m) ∧ (freeNumbers rs k).Nodup := by
  obtain ⟨a, b, _⟩ := lowestFree_spec (rs.map ShareRec.num) Config.pool 0 k
  refine ⟨fun m hm => ⟨by have := (a m hm).2.2; simpa [Config.pool] using this, fun r hr e => ?_⟩, ?_⟩
  · exact (a m hm).1 (List.mem_map.2 ⟨r, hr, e⟩)
  · exact b.imp (fun h => Nat.ne_of_lt h)

/-! ### Joining -/

/-- A record joined is in the list, with all it held. -/
theorem joinShare_perm (r : ShareRec) (rs : List ShareRec) : (joinShare r rs).Perm (r :: rs) := by
  induction rs with
  | nil => exact .refl _
  | cons x t ih =>
    simp only [joinShare]
    split_ifs
    · exact .refl _
    · exact (List.Perm.cons x ih).trans (.swap ..)

/-- Joining a record leaves the other entries' lists as they are. -/
theorem entryRecords_joinShare_ne (r : ShareRec) (rs : List ShareRec) {n : Nat} (h : r.entry ≠ n) :
    entryRecords (joinShare r rs) n = entryRecords rs n := by
  induction rs with
  | nil => simp [joinShare, entryRecords, h]
  | cons x t ih =>
    simp only [joinShare]
    split_ifs
    · simp [entryRecords, h]
    · simp only [entryRecords, List.filter_cons] at ih ⊢
      rw [ih]

/-- A record joins its own entry's list at the end. -/
theorem entryRecords_joinShare_self (r : ShareRec) (rs : List ShareRec)
    (h : rs.Pairwise fun a b => a.entry ≤ b.entry) :
    entryRecords (joinShare r rs) r.entry = entryRecords rs r.entry ++ [r] := by
  induction rs with
  | nil => simp [joinShare, entryRecords]
  | cons x t ih =>
    rw [List.pairwise_cons] at h
    simp only [joinShare]
    split_ifs with hx
    · have : (x :: t).filter (fun q => q.entry == r.entry) = [] := by
        rw [List.filter_eq_nil_iff]
        intro q hq
        rcases List.mem_cons.1 hq with rfl | hq
        · simp; omega
        · have := h.1 q hq
          simp; omega
      simp only [entryRecords] at *
      rw [List.filter_cons_of_pos (by simp), this]
      rfl
    · simp only [entryRecords, List.filter_cons] at ih ⊢
      rw [ih h.2]
      split_ifs <;> rfl

/-- Joining a record keeps the list grouped by entry. -/
theorem joinShare_grouped (r : ShareRec) {rs : List ShareRec} (h : rs.Pairwise fun a b => a.entry ≤ b.entry) :
    (joinShare r rs).Pairwise fun a b => a.entry ≤ b.entry := by
  induction rs with
  | nil => simp [joinShare]
  | cons x t ih =>
    rw [List.pairwise_cons] at h
    simp only [joinShare]
    split_ifs with hx
    · refine List.pairwise_cons.2 ⟨fun q hq => ?_, List.pairwise_cons.2 h⟩
      rcases List.mem_cons.1 hq with rfl | hq
      · omega
      · have := h.1 q hq; omega
    · refine List.pairwise_cons.2 ⟨fun q hq => ?_, ih h.2⟩
      rcases List.mem_cons.1 ((joinShare_perm r t).mem_iff.1 hq) with rfl | hq
      · omega
      · exact h.1 q hq

/-- A record placed after one of its entry is in the list, or the list is as it was. -/
theorem mem_joinAfter {n : Nat} {r q : ShareRec} {rs : List ShareRec} (h : q ∈ joinAfter n r rs) :
    q ∈ rs ∨ (q = r ∧ ∃ x ∈ rs, x.num = n ∧ x.entry = r.entry) := by
  induction rs with
  | nil => simp [joinAfter] at h
  | cons x t ih =>
    simp only [joinAfter] at h
    split_ifs at h with hx
    · rcases List.mem_cons.1 h with rfl | h
      · simp
      · rcases List.mem_cons.1 h with rfl | h
        · exact .inr ⟨rfl, x, by simp, hx⟩
        · exact .inl (by simp [h])
    · rcases List.mem_cons.1 h with rfl | h
      · simp
      · rcases ih h with h | ⟨e, y, hy, hn⟩
        · exact .inl (by simp [h])
        · exact .inr ⟨e, y, by simp [hy], hn⟩

/-- Placing a record after one of its entry keeps the list grouped by entry. -/
theorem joinAfter_grouped (n : Nat) (r : ShareRec) {rs : List ShareRec}
    (h : rs.Pairwise fun a b => a.entry ≤ b.entry) :
    (joinAfter n r rs).Pairwise fun a b => a.entry ≤ b.entry := by
  induction rs with
  | nil => simp [joinAfter]
  | cons x t ih =>
    rw [List.pairwise_cons] at h
    simp only [joinAfter]
    split_ifs with hx
    · refine List.pairwise_cons.2 ⟨fun q hq => ?_, List.pairwise_cons.2 ⟨fun q hq => ?_, h.2⟩⟩
      · rcases List.mem_cons.1 hq with rfl | hq
        · omega
        · exact h.1 q hq
      · have := h.1 q hq; omega
    · refine List.pairwise_cons.2 ⟨fun q hq => ?_, ih h.2⟩
      rcases mem_joinAfter hq with hq | ⟨rfl, y, hy, -, he⟩
      · exact h.1 q hq
      · have := h.1 y hy; omega

/-! ### Trimming (R109) -/

/-- A trim keeps the order of what it keeps. -/
theorem trimLoop_nums (q : Nat) (rs : List ShareRec) (x : Nat) :
    List.Sublist ((trimLoop q rs x).map ShareRec.num) (rs.map ShareRec.num) := by
  induction rs generalizing x with
  | nil => exact .refl _
  | cons r t ih =>
    simp only [trimLoop]
    split_ifs
    · exact .refl _
    · exact (ih _).cons _
    · exact .refl _
    · exact (ih _).cons_cons _

/-- A trim takes away no more than the excess. -/
theorem trimLoop_sum (q : Nat) (rs : List ShareRec) (x : Nat) :
    powerSum rs ≤ powerSum (trimLoop q rs x) + x := by
  induction rs generalizing x with
  | nil => simp [trimLoop, powerSum]
  | cons r t ih =>
    simp only [trimLoop]
    split_ifs with h1 h2 h3
    · omega
    · have := ih (x - r.power)
      simp only [powerSum, List.map_cons, List.sum_cons] at *
      omega
    · simp only [powerSum, List.map_cons, List.sum_cons]
      omega
    · have := ih x
      simp only [powerSum, List.map_cons, List.sum_cons] at *
      omega

end Sys2Proof.Machine
end

