-- ==== Sys2Proof/WellFormed.lean ====
section
/-! DEFINITION. Which commands describe something the ports can carry. A received frame declares L in
2 to 32, so its contents hold at most 30 bytes (R177). -/

namespace Sys2Proof

/-- The frame codes of the requests (R178). -/
def requestCodes : List Nat :=
  [0x01, 0x02, 0x03, 0x04, 0x05, 0x06, 0x07, 0x08, 0x09, 0x0A, 0x0B, 0x0C, 0x0D] ++
  [0x10, 0x11, 0x12, 0x13, 0x14, 0x15, 0x16, 0x17, 0x18, 0x19, 0x1A, 0x1B, 0x1C] ++
  [0x20, 0x21, 0x22, 0x23, 0x24, 0x25]

/-- The contents fit a frame the receiver takes: L, which counts code, tag and contents, is at most 32. -/
def contentsFit (contents : List Byte) : Bool := contents.length ≤ 30

/-- Well-formed commands. -/
def Instr.wf : Instr → Bool
  | .time _ _ c | .gate _ _ c | .feeder _ _ c | .feeders _ _ c | .units _ _ c | .settings _ _ c
  | .start _ _ c | .stop _ _ c | .engage _ _ c | .disengage _ _ c | .channels _ _ c
  | .product _ _ c | .offer _ _ c | .quote _ _ c | .award _ _ c | .withdraw _ _ c
  | .discard _ _ c | .release _ _ c | .list _ _ c | .entry _ _ c | .take _ _ c
  | .margin _ _ c | .thresholds _ _ c | .lockShort _ _ c | .lineMode _ _ c | .deadband _ _ c
  | .activate _ _ c | .override _ _ c | .clear _ _ c | .dispatch _ _ c | .set _ _ c
  | .map _ _ c => contentsFit c
  | .busy _ _ _ c => contentsFit c
  -- the row is for a code that no request has (R167, R178)
  | .unknownRequestCode _ code _ c => contentsFit c && !requestCodes.contains code.toNat
  -- a frame from a concentrator, good or not, has at least one character (R33)
  | .channelAnswer _ chars => !chars.isEmpty
  | .strayChannelFrame _ chars => !chars.isEmpty
  | .discardedFrame _ chars => !chars.isEmpty
  | .frequencySample bytes => !bytes.isEmpty
  | .reset | .timeMark | .markWatchExpiry | .holdoverSecondTimerExpiry
  | .intercharacterTimeout _ | .frameSent _ | .channelFrameSent _ | .replyWaitExpiry _
  | .exchangeTimerExpiry | .sampleByteTimeout | .frequencyWatchExpiry | .silenceTimerExpiry
  | .replanComplete | .tlJobComplete | .releaseOfReset => true

end Sys2Proof
end

