-- ==== Sys2Proof/Tests/Slice0.lean ====
section
/-! SUPPORT. Checks of the model against figures that the spec prints, the ill-formed commands that
WellFormed refuses, and a witness for the hypotheses of each statement. -/

namespace Sys2Proof.Tests

-- One theorem after another: each checked by the kernel before the next.
set_option Elab.async false

open Sys2Proof.Machine

/-! ### WellFormed refuses -/

/-- Contents of 31 bytes cannot stand in a frame with L up to 32 (R177). -/
theorem test_wf_contents_too_long : (Instr.gate .gl 0 (List.replicate 31 0#8)).wf = false := by decide
theorem test_wf_contents_longest : (Instr.gate .gl 0 (List.replicate 30 0#8)).wf = true := by decide
theorem test_wf_busy_too_long : (Instr.busy .tl 0x80#8 0 (List.replicate 31 0#8)).wf = false := by decide
/-- 0x25 is the code of CHANNELS, so it is no unknown code; 0x80 is one (R178). -/
theorem test_wf_known_code : (Instr.unknownRequestCode .fa 0x25#8 0 []).wf = false := by decide
theorem test_wf_unknown_code : (Instr.unknownRequestCode .fa 0x80#8 0 []).wf = true := by decide
theorem test_wf_no_answer_characters : (Instr.channelAnswer 0 []).wf = false := by decide
theorem test_wf_no_stray_characters : (Instr.strayChannelFrame 0 []).wf = false := by decide
theorem test_wf_no_frame_characters : (Instr.discardedFrame .tl []).wf = false := by decide
theorem test_wf_no_sample_bytes : (Instr.frequencySample []).wf = false := by decide

/-! ### Figures the spec prints -/

/-- The check of the characters 1 to 9 (R177). -/
theorem test_crc_check_value :
    crc16 [0x31#8, 0x32#8, 0x33#8, 0x34#8, 0x35#8, 0x36#8, 0x37#8, 0x38#8, 0x39#8] = 0x29B1#16 := by decide +kernel

/-- 02, Worked figures: SOC records. -/
theorem test_soc_figures :
    decodeUnsigned 10 0 1000 635 = 620 ∧ decodeUnsigned 8 100 900 128 = 501 ∧
      decodeUnsigned 8 0 1200 255 = 1200 := by decide

/-- 02, Worked figures: MEASURED_POWER records, the raw values in two's complement. -/
theorem test_measured_power_figures :
    decodeSigned 16 10000 (65536 - 13107) = -4000 ∧ decodeSigned 16 10000 32768 = -10000 ∧
      decodeSigned 16 10000 9567 = 2919 := by decide

/-- 02, Worked figures: SETPOINT records. -/
theorem test_setpoint_figures :
    encodeSetpoint 16 10000 2920 = 9567 ∧ encodeSetpoint 16 10000 (-35000) = -32767 ∧
      encodeSetpoint 12 5000 (-1870) = -765 := by decide

/-- A unit of the worked cases. -/
def unit (feeder pd pc energy eta soc floor ceiling miss : Nat) : UnitRec :=
  { UnitRec.reset with
    state := .ready, feeder := feeder, pd := pd, pc := pc, energy := energy, eta := eta, soc := soc,
    floor := floor, ceiling := ceiling, miss := miss }

/-- A share record of one slot. -/
def share (num entry unit : Nat) (cls : DirClass) (power slot : Nat) : ShareRec :=
  { num := num, entry := entry, unit := unit, cls := cls, power := power, first := slot, last := slot }

/-- 05, Worked case: units A, B and C, the unit of feeder 7 on a channel that is not RUNNING, and the records
they hold in slot 110. -/
def workedFleet : State :=
  { State.reset with
    time := { State.reset.time with timeSet := true, slot := 100 }
    eval := { State.reset.eval with start := 1030 }
    fleet :=
      { units := [(1029, unit 3 5000 4000 13500 950 620 200 950 0), (1030, unit 3 4600 0 10000 900 300 250 950 3),
          (2051, unit 7 3300 0 9800 960 910 100 950 0), (3000, unit 7 3000 0 9000 950 500 200 950 0)]
        feeders := [(3, { exportKw := 6, importKw := 6 }), (7, { exportKw := 3, importKw := 3 })], lostLimit := 8 }
    ctl := { State.reset.ctl with
      channels := [(2, { ChannelRec.reset with state := .running }), (4, { ChannelRec.reset with state := .running })] }
    shares := [share 7 2 1029 .symmetric 2000 110, share 8 3 3000 .up 500 110] }

/-- The raw headroom of the QUOTE, and the kW it supports. -/
theorem test_worked_quote :
    rawHeadroom (freeze workedFleet) .rsu 110 1 = 6400 ∧ supportedKw 6400 50 = 6 := by decide +kernel

/-- Unit A's FSR offerable. -/
theorem test_worked_fsr_offerable :
    rangeOfferable (freeze workedFleet) workedFleet.shares .fsr 110 1 1029 = 2000 := by decide +kernel

/-- The walk of the OFFER of 6 kW: B, C, A. -/
theorem test_worked_offer :
    (planOffer (freeze workedFleet)
      { ref := 1, product := .rsu, first := 110, count := 1, quantity := 6, exact := true }).fresh =
      [(1030, 900), (2051, 2500), (1029, 2920)] := by decide +kernel

/-- The walk of the OFFER of 7 kW places 6400 W, which supports 6 kW; with the flag clear it books 6. -/
theorem test_worked_offer_short :
    (planOffer (freeze workedFleet)
      { ref := 1, product := .rsu, first := 110, count := 1, quantity := 7, exact := false }).placed = 6400 := by
  decide +kernel

/-- 06, Worked example: the award trim to 5 kW and to 3 kW. -/
theorem test_worked_trims :
    let rs := [share 11 4 1030 .up 900 110, share 12 4 2051 .up 2500 110, share 13 4 1029 .up 2920 110]
    (trimRecords 100 (backingTarget 5 50) rs).map ShareRec.power = [900, 2500, 1870] ∧
      (trimRecords 100 (backingTarget 3 50) rs).map ShareRec.power = [900, 2260] := by decide

/-- 06, Worked example: a replan in delivery, in slot 60001. -/
def workedReplan : State :=
  { State.reset with
    time := { State.reset.time with timeSet := true, slot := 60001 }
    book := { State.reset.book with endurance := { fsr := 1800, rsu := 900, rsd := 900 } }
    eval := { State.reset.eval with start := 1030 }
    fleet :=
      { units := [(1029, unit 3 5000 4000 13500 950 340 200 950 0), (1030, unit 3 4600 0 10000 900 280 250 950 0),
          (2051, { unit 7 3300 0 9800 960 910 100 950 8 with state := .lost }),
          (3100, unit 9 3000 0 10000 950 500 200 950 0)]
        feeders := [(3, { exportKw := 20, importKw := 20 }), (7, { exportKw := 20, importKw := 20 }),
          (9, { exportKw := 1, importKw := 1 })], lostLimit := 8 }
    ctl := { State.reset.ctl with
      channels := [(2, { ChannelRec.reset with state := .running }), (4, { ChannelRec.reset with state := .running }),
        (6, { ChannelRec.reset with state := .running })] }
    shares := [{ share 11 5 1030 .up 900 60000 with last := 60003 }, { share 12 5 2051 .up 2500 60000 with last := 60003 },
      { share 13 5 1029 .up 1870 60000 with last := 60003 }, { share 20 9 1029 .symmetric 3000 60000 with last := 60003 }] }

/-- Entry 5 of the replan. -/
def workedEntry : Entry :=
  { ref := 1, product := .rsu, first := 60000, count := 4, offered := 5, awarded := some 5, state := .active,
    uncovered := 0 }

/-- Records 12 and 13 are cut, A's continuation keeps 1180 W, and D takes what its feeder allows. -/
theorem test_worked_replan :
    let p := planReplan (freeze workedReplan) 5 workedEntry
    p.cut = [12, 13] ∧ p.continuations.map Continuation.power = [1180] ∧ p.fresh = [(3100, 1000)] ∧
      p.target = 3190 ∧ p.placed = 1000 := by decide +kernel

/-- 07, Worked round, and 08, Worked example. -/
def workedRound : State :=
  { State.reset with
    time := { State.reset.time with timeSet := true, slot := 60400 }
    book := { State.reset.book with entries :=
      [(20, { workedEntry with first := 60400, awarded := some 4 }),
       (21, { workedEntry with first := 60400, product := .fsr, awarded := some 3 })] }
    disp := { State.reset.disp with sample := some (-120), requestedU := 3 }
    fleet :=
      { units := [(2561, unit 12 4000 4000 9000 950 600 200 950 0), (2562, unit 12 3000 3000 9000 950 180 200 950 0),
          (2563, { unit 12 3000 3000 9000 950 600 200 950 8 with state := .lost }),
          (2570, unit 13 5000 5000 9000 950 500 200 900 0), (2571, unit 12 2000 2000 9000 950 700 200 950 0)]
        feeders := [(12, { exportKw := 2, importKw := 10 }), (13, { exportKw := 20, importKw := 20 })], lostLimit := 8 }
    ctl := { State.reset.ctl with channels := [(5, { ChannelRec.reset with state := .running })] }
    shares := [share 40 20 2561 .up 1520 60400, share 41 20 2562 .up 1000 60400, share 42 20 2563 .up 1700 60400,
      share 30 21 2561 .symmetric 1000 60400, share 31 21 2570 .symmetric 2160 60400] }

/-- The setpoints sent, the shortfall and the export clamp total. -/
theorem test_worked_round :
    let f := formFigures workedRound
    f.setpoints = [(2561, 1630), (2570, 2230), (2571, 360)] ∧ f.shortfall = 2 ∧ f.exportClamp = 823 := by
  decide +kernel

/-- Full up in the same fleet. -/
theorem test_worked_full_up :
    let f := formFigures { workedRound with disp := { workedRound.disp with override := .fullUp } }
    f.setpoints = [(2561, 1330), (2570, 5000), (2571, 660)] ∧ f.exportClamp = 4001 := by decide +kernel

/-- 08, Worked example: attribution in one round of the worked round, with its measured powers. -/
theorem test_worked_attribution :
    let f := formFigures workedRound
    let s := { workedRound with
      disp := { workedRound.disp with figures := some f }
      fleet := { workedRound.fleet with units := workedRound.fleet.units.map fun p =>
        (p.1, { p.2 with measured := if p.1 = 2561 then 1600 else if p.1 = 2570 then 2200
                                     else if p.1 = 2571 then 360 else 0 }) }
      track := { current := [(20, freshAccumulator 60400), (21, freshAccumulator 60400)], held := [],
                 roll := some { slot := 60400, period := 250, entries :=
                   [{ entry := 20, product := .rsu, awarded := 4 }, { entry := 21, product := .fsr, awarded := 3 }] }
                 reported := [2561, 2562, 2570, 2571], queue := [] } }
    let t := (trackCompletion s).track.current.map fun p =>
      (p.2.requestedUp, p.2.deliveredUp, p.2.shortfallRounds)
    t = [(750000, 617500, 1), (450000, 422000, 0)] := by decide +kernel

/-- 08, Worked sequence: the up states of rounds 1 to 5. -/
theorem test_worked_margin_states :
    let m := moveState 1200 1000 25
    m .sound 1175 = .thin ∧ m .thin 987 = .short ∧ m .short 1012 = .short ∧ m .short 1031 = .thin ∧
      m .thin 1225 = .sound := by decide

/-- 08, Worked sequence: the energy bound of one live unit, of 2850 Wh at 1800 s. -/
theorem test_worked_deliverable : deliverableUp 500 200 10000 950 = 2850 := by decide

/-- 09, Worked sequence: FLOOR 520 and then CEILING 580 leave a floor of 480 and a ceiling of 580. -/
theorem test_worked_settings :
    let s := applySetting 1029 (.ceiling 580) (applySetting 1029 (.floor 520) workedFleet)
    (unitOf s 1029).floor = 480 ∧ (unitOf s 1029).ceiling = 580 := by decide +kernel

/-- 04, Worked sequence: reading the book from the start, and from the key (52022, 9). -/
theorem test_worked_list :
    let e (first : Nat) (st : EntryState) : Entry := { workedEntry with first := first, state := st }
    let s := { State.reset with book := { State.reset.book with entries :=
      [(0, e 52015 .ended), (1, e 52030 .offered), (3, e 52030 .offered), (5, e 52022 .withdrawn),
       (8, e 52030 .awarded)] } }
    (bookReading s true false 0 0).map Prod.fst = [0, 5, 1, 3, 8] ∧
      (bookReading s true true 0 0).map Prod.fst = [1, 3, 8] ∧
      (bookReading s false false 52022 9).map Prod.fst = [1, 3, 8] := by decide +kernel

/-- The machine right after reset with the time set. -/
def timed (slot second : Nat) : State :=
  { State.reset with time := { State.reset.time with timeSet := true, slot := slot, second := second } }

/-- The state a step answers; the state before it where it answers none. -/
def next (i : Instr) (s : State) : State :=
  match exec i s with
  | .next t => t
  | .fault _ => s
  | .refused _ => s

/-- 01, Worked sequence: the mark watch expires at second 0 of slot 52001. -/
theorem test_worked_holdover :
    let t := next .markWatchExpiry (timed 52001 0)
    t.time.second = 2 ∧ t.time.holdover = true ∧ t.time.holdoverTimer = some 1000 := by decide +kernel

/-- 01, Worked sequence: a mark at second 899 of slot 52000. -/
theorem test_worked_boundary :
    let t := next .timeMark (timed 52000 899)
    t.time.slot = 52001 ∧ t.time.second = 0 := by decide +kernel

/-! ### Witnesses: for each statement with hypotheses, states and operands that meet them, clause by clause -/

/-- An entry of two slots from `first` on. -/
def sale (st : EntryState) (first : Nat) (uncovered : Nat) : Entry :=
  { ref := 7, product := .rsu, first := first, count := 2, offered := 5,
    awarded := if st = .offered then none else some 5, state := st, uncovered := uncovered }

/-- Slot 100 with entry 3 in a state, and a record of it on unit 0. -/
def selling (st : EntryState) : State :=
  setShares [share 0 3 0 .up 5000 104] (setEntry 3 (sale st 104 0) (timed 100 0))

/-- The worked fleet with FA's map over every unit index. -/
def mapped : State :=
  { workedFleet with links := { workedFleet.links with
      mapA := { limit := 4096, marks := BitVec.allOnes 4096 } } }

/-- A channel of the mapped fleet in a state. -/
def channelIn (k : Nat) (st : ChannelState) : State := setChannel k { channelOf mapped k with state := st } mapped

/-- Channel 0 with a line, in a state with discovery progress. -/
def lineIn (line : ChannelLine) (d : Option Discovery) : State :=
  setChannel 0 { ChannelRec.reset with state := .starting, discovery := d, line := line } (timed 100 0)

/-- A job in flight with nothing planned. -/
def jobOf (kind : JobKind) : Job :=
  { kind := kind, frozen := freeze workedFleet, plan := Plan.nothing, disturbed := false,
    boundaryTaken := false, awardTaken := false }

/-- A request of 6 kW for slot 110. -/
def sixKw : OfferReq := { ref := 1, product := .rsu, first := 110, count := 1, quantity := 6, exact := true }

/-- A QUOTE of the same slot. -/
def quoteOne : QuoteReq := { product := .rsu, first := 110, count := 1 }

/-- The worked fleet with a job in flight and a TL request in process. -/
def running (j : Job) : State :=
  setLink .tl { LinkRec.reset with inProcess := some { code := 0x02#8, tag := 9#8 } }
    { workedFleet with eval := { workedFleet.eval with job := some j } }

theorem witness_StepRunsTheFrontCommand :
    ({ State.reset with pending := [.timeMark, .reset] }).pending = .timeMark :: [.reset] ∧
      State.reset.pending = [] := by decide

theorem witness_ResetAndItsRelease :
    (next .reset (timed 5 6)).resetHeld = true ∧ (timed 5 6).resetHeld = false ∧
      Instr.timeMark ≠ .reset ∧ Instr.timeMark ≠ .releaseOfReset := by decide

/-- The seconds 0, 898 and 899, the last two slots, holdover, and an unset time. -/
theorem witness_TimeMarkCountsASecond :
    (next .markWatchExpiry (timed 5 0)).time.holdover = true ∧
    (State.reset.time.holdover = false ∧ State.reset.time.timeSet = false) ∧
    ((timed 5 898).resetHeld = false ∧ (timed 5 898).time.holdover = false ∧ (timed 5 898).time.second < 899) ∧
    ((timed 4294967295 899).time.second = 899 ∧ (timed 4294967295 899).time.slot = 4294967295) ∧
    (timed 4294967294 899).time.slot ≠ 4294967295 := by decide +kernel

theorem witness_HoldoverCountsOnTheOscillator :
    ((timed 5 897).time.markWatch.isSome = true ∧ (timed 5 897).time.second ≤ 897) ∧
    (next .markWatchExpiry (timed 5 897)).time.markWatch = none ∧
    ((next .markWatchExpiry (timed 5 0)).time.holdoverTimer.isSome = true ∧
      (next .markWatchExpiry (timed 5 896)).time.second = 898) ∧
    (timed 5 0).time.holdoverTimer = none := by decide +kernel

theorem witness_TimeIsSetOnce : CanTake State.reset .gl ∧ (List.replicate 7 1#8).length = 7 := by
  unfold CanTake; decide

/-- The values 0, 1, 8, 9; an entry before its gate, a waiting OFFER, a running one; and none of them. -/
theorem witness_GateSetsTheOffset :
    CanTake (timed 100 0) .gl ∧ readU [0#8] 0 1 = 0 ∧ 8 < readU [9#8] 0 1 ∧ readU [1#8] 0 1 = 1 ∧
    readU [8#8] 0 1 = 8 ∧ CanTake (selling .offered) .gl ∧
    (∃ p ∈ (selling .offered).book.entries, p.2.state = .offered ∨ p.2.state = .awarded) ∧
    ¬(∃ p ∈ (selling .locked).book.entries, p.2.state = .offered ∨ p.2.state = .awarded) ∧
    (timed 100 0).eval.slot = none ∧ (timed 100 0).eval.job = none := by unfold CanTake; decide +kernel

/-- Five entries, one for each line of the transition, at the boundary into slot 100 with G 4. -/
def closing : State :=
  { timed 100 0 with book := { State.reset.book with entries :=
    [(0, sale .offered 104 30), (1, sale .awarded 104 30), (2, sale .locked 100 30), (3, sale .active 98 30),
     (4, sale .offered 105 30)] } }

theorem witness_BoundaryMovesEntries :
    TablesCanonical closing ∧ entryOf closing 5 = none ∧
    (slotBoundary closing).book.entries.map (fun p => (p.1, p.2.state, p.2.uncovered)) =
      [(0, .lapsed, 0), (1, .locked, 30), (2, .active, 30), (3, .ended, 0), (4, .offered, 30)] := by
  unfold TablesCanonical Listed Ascending; decide +kernel

/-- A setting for unit 1029 in FA's map and one for it in FB's, which marks nothing; the entries and accounts of
the boundary into slot 100, with and without a round of slot 99; a change list that names the entry, one that has
room for it, and a full one. -/
theorem witness_BoundaryDrainsTheQueue :
    let q (o : Link) : QueuedSetting := { origin := o, unit := 1029, setting := .floor 300 }
    let roll : Roll := { entries := [], slot := 99, period := 250 }
    let s := { closing with
      queue := [q .fa, q .fb], links := mapped.links, fleet := workedFleet.fleet
      track := { closing.track with current := [(3, freshAccumulator 99)], roll := some roll } }
    let m : ChangeMember := { entry := 3, causeState := true, causeCover := false }
    let others := (List.range 64).map fun n => { m with entry := n + 10 }
    TablesCanonical s ∧ inOriginMap s .fa 1029 = true ∧ inOriginMap s .fb 1029 = false ∧
    ({ s.ctl with round := some { participating := [2], outstanding := [2], failed := [] } }).round.isSome = true ∧
    (s.track.roll.map fun r => r.slot + 1) = some s.time.slot ∧ s.ctl.round = none ∧
    (freshAccumulator 99).slot + 1 = s.time.slot ∧ (boundaryState 100 4 (sale .offered 104 30)).isSome = true ∧
    ((others.take 63).length < 64 ∧ 64 ≤ others.length ∧ ∀ k ∈ others, k.entry ≠ 3) ∧
    others.take 2 ++ m :: [] = (others.take 2) ++ [m] ∧ m.entry = 3 ∧ ∀ k ∈ others.take 2 ++ [], k.entry ≠ 3 := by
  unfold TablesCanonical Listed Ascending; decide +kernel

/-- Groups 63 and 64; a query, a lowering and an equal value. -/
theorem witness_FeederReplacesTheLimits :
    CanTake workedFleet .gl ∧ TablesCanonical workedFleet ∧ 63 < readU [1#8, 64#8, 0, 0, 0, 0] 1 1 ∧
    (readU [0#8, 63#8, 0, 0, 0, 0] 1 1 ≤ 63 ∧ readBit [0#8, 63#8, 0, 0, 0, 0] 0 0 = false) ∧
    (readBit [1#8, 3#8, 5, 0, 6, 0] 0 0 = true ∧
      readU [1#8, 3#8, 5, 0, 6, 0] 2 2 < (feederOf workedFleet 3).exportKw) := by
  unfold CanTake TablesCanonical Listed Ascending; decide +kernel

/-- Each read on a link that may send it: one unit and the last 64 units, every entry, record page 1023; the ends
of the range of two bytes, unsigned and signed. -/
theorem witness_ReadsChangeNothing :
    CanTake mapped .tl ∧ CanTake mapped .gl ∧ CanTake mapped .fa ∧
    (readU [0#8, 0#8, 1#8] 2 1 = 1 ∧ readU [0xC0#8, 0x0F#8, 64#8] 0 2 + readU [0xC0#8, 0x0F#8, 64#8] 2 1 = 4096) ∧
    (mapOf mapped .fa = some mapped.links.mapA ∧ ∀ k < 64, permitted mapped.links.mapA (4032 + k) = true) ∧
    (readU [0#8, 0, 0, 0, 0, 0xFF#8, 0x03#8] 5 2 ≤ 1023 ∧ readBit [1#8, 0, 0, 0, 0, 0xFF#8, 0xFF#8] 0 0 = true) ∧
    (entryOf (selling .offered) (readU [3#8, 0, 0xFF#8, 3#8] 0 2) = some (sale .offered 104 0) ∧
      readU [3#8, 0, 0xFF#8, 3#8] 2 2 ≤ 1023 ∧ CanTake (selling .offered) .gl) ∧
    65535 < 256 ^ 2 ∧ -2 ^ (8 * 2 - 1) ≤ (-32768 : Int) ∧ (32767 : Int) < 2 ^ (8 * 2 - 1) := by
  unfold CanTake; decide +kernel

theorem witness_ListReadsInOrder : TablesCanonical closing := by
  unfold TablesCanonical Listed Ascending; decide +kernel

/-- A holdback of 201 (bad), a new period while a channel runs (held), and a request that is taken. -/
theorem witness_SettingsAreStored :
    CanTake workedFleet .tl ∧ CanTake (timed 100 0) .tl ∧
    (readBit [1#8, 201#8, 0, 0, 0, 0, 0, 0, 0] 0 0 = true ∧ 200 < readU [1#8, 201#8, 0, 0, 0, 0, 0, 0, 0] 1 1) ∧
    (readU [0#8, 0, 0, 0, 0xE8#8, 3#8, 0, 0, 0] 4 2 = 1000 ∧ (1000 : Nat) ≠ workedFleet.ctl.period ∧
      ∃ k < 8, (channelOf workedFleet k).state ≠ .stopped) ∧
    (readU [1#8, 200#8, 10#8, 0, 100#8, 0, 250#8, 0, 32#8] 2 2 = 10 ∧
      ¬∃ k < 8, (channelOf (timed 100 0) k).state ≠ .stopped) := by unfold CanTake; decide +kernel

theorem witness_LostLimitTakesUnits :
    TablesCanonical workedFleet ∧ contributing workedFleet 1030 = true ∧ 3 ≤ (unitOf workedFleet 1030).miss := by
  unfold TablesCanonical Listed Ascending; decide +kernel

/-- Channel 2 RUNNING; channel 2 STOPPED with records; channel 0 STOPPED without. -/
theorem witness_StartBeginsDiscovery :
    CanTake mapped .fa ∧ mapOf mapped .fa = some mapped.links.mapA ∧
    (named [4#8] = [2] ∧ mapCovers mapped.links.mapA 2 = true ∧ (channelOf mapped 2).state ≠ .stopped) ∧
    ((channelOf (channelIn 2 .stopped) 2).state = .stopped ∧
      ∃ r ∈ (channelIn 2 .stopped).shares, channelOfUnit r.unit ∈ named [4#8]) ∧
    (named [1#8] = [0] ∧ mapCovers mapped.links.mapA 0 = true ∧ (channelOf mapped 0).state = .stopped ∧
      ∀ r ∈ mapped.shares, channelOfUnit r.unit ∉ named [1#8]) := by unfold CanTake; decide +kernel

/-- Channel 2 alone outstanding, and with channel 4; and channel 4, which has failed, with channel 2, which is
outstanding, in one STOP. -/
theorem witness_StopEmptiesTheChannel :
    CanTake mapped .fa ∧ mapOf mapped .fa = some mapped.links.mapA ∧ named [4#8] = [2] ∧
    mapCovers mapped.links.mapA 2 = true ∧ (channelOf mapped 0).state = .stopped ∧
    TablesCanonical mapped ∧ (channelOf mapped 2).state ≠ .stopped ∧
    (let s (o : List Nat) := { mapped with ctl := { mapped.ctl with
       round := some { participating := [2, 4], outstanding := o, failed := [2] } } }
     (stopChannel (s [2]) 2).ctl.failedMask = [] ∧ (stopChannel (s [2]) 2).ctl.round = none ∧
      ((stopChannel (s [4]) 2).ctl.round.map Round.failed) = some []) ∧
    (let r : Round := { participating := [2, 4], outstanding := [2], failed := [4] }
     let s := { mapped with ctl := { mapped.ctl with round := some r } }
     TablesCanonical s ∧ r.outstanding ≠ [] ∧ named [20#8] = [2, 4] ∧ (named [20#8]).Pairwise (· < ·) ∧
      (∀ k ∈ r.participating ++ r.outstanding ++ r.failed, k ∈ named [20#8] ∧ (channelOf s k).state ≠ .stopped) ∧
      stopOrder s (named [20#8]) = [4, 2]) := by
  unfold CanTake TablesCanonical Listed Ascending; decide +kernel

/-- 03, R51: a round whose every channel STOP takes out completes with an empty failed mask, though channel 4 had
failed in it. -/
theorem test_stop_completes_round_unfailed :
    let r : Round := { participating := [2, 4], outstanding := [2], failed := [4] }
    let t := next (.stop .fa 0#8 [20#8]) { mapped with ctl := { mapped.ctl with round := some r } }
    t.ctl.round = none ∧ t.ctl.failedMask = [] := by decide +kernel

theorem witness_EngageAndDisengageChannels :
    CanTake mapped .fa ∧ named [4#8] = [2] ∧ mapCovers mapped.links.mapA 2 = true ∧
    ((channelOf mapped 2).state ≠ .idling ∧ (channelOf mapped 2).state = .running) ∧
    ((channelOf (channelIn 2 .idling) 2).state = .idling ∧ (channelOf (channelIn 2 .idling) 2).state ≠ .running) ∧
    mapOf (channelIn 2 .idling) .fa = some mapped.links.mapA ∧ TablesCanonical (channelIn 2 .idling) := by
  unfold CanTake TablesCanonical Listed Ascending; decide +kernel

/-- 09, R162: a unit excluded on a channel that is not RUNNING raises its event at ENGAGE, and once; one excluded
while contributing raises it at once, and not again when it returns from LOST. -/
theorem test_event_of_exclusion_raised_once :
    let book := { State.reset.book with entries := [(2, sale .locked 110 0)] }
    let later := applySetting 1029 (.excluded true) { channelIn 2 .idling with book := book }
    let engaged := next (.engage .fa 0#8 [4#8]) later
    let atOnce := applySetting 1029 (.excluded true) { mapped with book := book }
    let probing := setUnit 1029 { unitOf atOnce 1029 with state := .probing, run := 1 }
      { atOnce with eval := State.reset.eval }
    later.eval.replans = [] ∧ (engaged.eval.job.map Job.kind) = some (.replan 2 (sale .locked 110 0)) ∧
      (unitOf engaged 1029).owesEvent = false ∧ atOnce.eval.replans = [2] ∧
      (goodReport 1029 0 probing).eval.replans = [] := by decide +kernel

theorem witness_ChannelLineWaitsForItsAnswer :
    (timed 100 0).resetHeld = false ∧ (channelOf (timed 100 0) 0).line = .free ∧
    (channelOf (lineIn (.sending .halt .nobody []) none) 0).line = .sending .halt .nobody [] ∧
    (channelOf (lineIn (.sending .roster .discovery []) none) 0).line = .sending .roster .discovery [] ∧
    (channelOf (lineIn (.awaiting .exchange .round 60) none) 0).line = .awaiting .exchange .round 60 ∧
    (ReplyOutcome.good = .good ∧ ReplyOutcome.timeout ≠ .good) := by
  decide +kernel

/-- 03, R33: a good ARM answer; no start byte, a character not correctly framed, a declared length not reached; a
check that does not match; an answer of another kind, and of length 0; and a byte left over. -/
theorem test_answers_judged :
    let r := ChannelRec.reset
    let judged (bs : List Byte) := (judgeAnswer r .arm (bs.map .ok)).1
    let arm := channelWire 0x81#8 []
    judged arm = .good ∧ judged (0#8 :: arm) = .framing ∧
    (judgeAnswer r .arm ((arm.take 4).map .ok ++ .bad :: (arm.drop 5).map .ok)).1 = .framing ∧
    judged (arm.take 5) = .framing ∧ judged (arm.take 4 ++ [0#8, 0#8]) = .checkError ∧
    judged (channelWire 0x82#8 []) = .framing ∧ judged (channelWire 0x81#8 [9#8]) = .extraData := by decide +kernel

/-- A ROSTER of drops 5 and 5, one of 5 and 511, and one with a byte left over; a page of another drop, one with a
record cut short, and one that fits; an EXCHANGE without a section and with one. -/
theorem witness_ChannelLineWaitsForItsAnswer_judged :
    let ends (bs : List Byte) := readDrops bs
    (([] : List RxChar) = [] ∨ ([] : List RxChar).head? = some .bad) ∧
    (ends [2#8, 0#8, 5#8, 0#8, 5#8, 0#8] = [5, 5] ∧ ends [2#8, 0#8, 5#8, 0#8, 0xFF#8, 1#8] = [5, 511]) ∧
    (readU [5#8, 0, 0, 0, 1#8] 0 2 ≠ 6 ∧ readDescriptors 1 ([5#8, 0, 0, 0, 1#8].drop 5) = none ∧
      readDescriptors 0 ([5#8, 0, 0, 0, 0].drop 5) = some ([], [])) ∧
    (readSections 1 ([0#8].drop 1) = none ∧
      readSections 1 ([0#8, 1#8, 0#8].drop 1) = some ([{ present := true, bytes := [] }], [])) ∧
    (readU [1#8, 2#8, 10#8, 0, 0, 0, 0, 0, 0, 0, 0, 0, 0] 12 1 ≤ 15 ∧ ([1#8, 16#8] : List Byte).length < 2 + 16) := by
  decide +kernel

/-- A catalogue that passes every check of R38, of the records that must be present. -/
def fitting : List Descriptor :=
  let d (k : DescKind) (dir : DescDir) (w : Nat) (lo hi : Int) (v : Option Int) : Descriptor :=
    { kind := k, dir := dir, width := w, min := lo, max := hi, fixedValue := v, name := [0x41#8] }
  [d .soc .reported 10 0 1000 none, d .measuredPower .reported 16 (-8000) 8000 none,
   d .setpoint .commanded 16 (-8000) 8000 none, d .energy .fixed 0 0 0 (some 70000),
   d .feeder .fixed 0 0 0 (some 63)]

/-- Each check of R38 in its order, by a catalogue that fails it and those after it at most. -/
theorem test_catalogue_checks :
    let change (n : Nat) (g : Descriptor → Descriptor) := fitting.mapIdx fun k d => if k = n then g d else d
    catalogueFault fitting = none ∧ catalogueFault [] = some .missingRecord ∧
    catalogueFault (change 0 fun d => { d with dir := .fixed }) = some .badKind ∧
    catalogueFault (fitting ++ fitting.take 1) = some .badKind ∧
    catalogueFault (change 4 fun d => { d with fixedValue := none }) = some .badKind ∧
    catalogueFault (change 1 fun d => { d with width := 33 }) = some .badWidth ∧
    catalogueFault (fitting.take 4) = some .missingRecord ∧
    catalogueFault (change 1 fun d => { d with width := 1 }) = some .badScale ∧
    catalogueFault (fitting ++ List.replicate 4 { fitting[0] with kind := .pad, width := 32 }) =
      some .payloadTooLong ∧
    catalogueFault (change 4 fun d => { d with fixedValue := some 64 }) = some .badFeeder := by decide +kernel

/-- Attempts 2 and 3; a ROSTER of no drop and of drop 5; a page without and with a further one. -/
theorem witness_ArmAnswersMoveDiscovery :
    let d (t : DiscoveryStep) (n : Nat) : Discovery := { step := t, attempt := n, position := 0, page := 0, records := [] }
    let s (t : DiscoveryStep) (n : Nat) := lineIn (.awaiting .arm .discovery 60) (some (d t n))
    (s .arm 2).resetHeld = false ∧
    ((channelOf (s .arm 2) 0).discovery = some (d .arm 2) ∧ (d .arm 2).attempt < 3 ∧
      (channelOf (s .arm 3) 0).line = .awaiting .arm .discovery 60 ∧ 3 ≤ (d .arm 3).attempt) ∧
    ((channelOf (s .roster 3) 0).discovery = some (d .roster 3) ∧ readDrops [0#8, 0#8] = [] ∧
      readDrops [1#8, 0#8, 5#8, 0#8] = [5]) ∧
    ((channelOf (s .catalogue 1) 0).discovery = some (d .catalogue 1) ∧ (d .catalogue 1).attempt < 2 ∧
      2 ≤ (d .catalogue 2).attempt ∧ ({ d .catalogue 1 with page := 1 }).page ≠ 0) ∧
    readDescriptors (readU [5#8, 0#8, 0#8, 1#8, 0#8] 4 1) ([5#8, 0#8, 0#8, 1#8, 0#8].drop 5) = some ([], []) ∧
    readBit [5#8, 0#8, 0#8, 1#8, 0#8] 3 0 = true ∧ readBit [5#8, 0#8, 0#8, 0#8, 0#8] 3 0 = false ∧
    catalogueFault (fitting ++ []) = none ∧ catalogueFault ([] ++ []) = some .missingRecord := by decide +kernel

/-- A round in which channel 2 alone is outstanding. -/
def inRound : State :=
  { workedFleet with
    ctl := { workedFleet.ctl with round := some { participating := [2, 4], outstanding := [2], failed := [] } }
    track := { workedFleet.track with roll := some { entries := [], slot := 100, period := 250 } } }

/-- The second and the third failure; units in READY, LOST and EMPTY; a section that is present with a right and
a wrong length and one that is not; the telemetry of `fitting`; a round that goes on and one that ends; a bite. -/
theorem witness_FailedExchangeIsCounted :
    let counted (n : Nat) (o : List Nat) : State := setChannel 2 { channelOf inRound 2 with failures := n, roster := [5] }
      { inRound with ctl := { inRound.ctl with round := some { participating := [2, 4], outstanding := o, failed := [] } } }
    let x : DropSection := { present := true, bytes := [1#8, 2#8, 3#8, 4#8] }
    let s := setUnit 1029 { unitOf workedFleet 1029 with catalogue := fitting } workedFleet
    ReplyOutcome.timeout ≠ .good ∧ TablesCanonical (counted 2 [2]) ∧
    ((channelOf (counted 1 [2]) 2).failures + 1 < 3 ∧ 3 ≤ (channelOf (counted 2 [2]) 2).failures + 1) ∧
    ([1#8] : List Byte).length < 65535 ∧ x.bytes.length ≤ 16 ∧
    TablesCanonical s ∧ (unitOf s (512 * 2 + 5)).state = .ready ∧ (unitOf s 0).state = .empty ∧
    x.bytes.length = (((fitting.filter fun d => d.dir == .reported).map Descriptor.width).sum + 7) / 8 ∧
    fitting.filter (fun d => d.dir == .reported) = [] ++ fitting[0] :: [fitting[1]] ∧
    fitting.filter (fun d => d.dir == .reported) = [fitting[0]] ++ fitting[1] :: [] ∧
    fitting[0].kind ≠ fitting[1].kind ∧
    readSections (channelOf (counted 0 [2]) 2).roster.length
      ([1#8] ++ (putFlags [x.present] ++ putU 1 x.bytes.length ++ x.bytes) |>.drop 1) = some ([x], []) ∧
    readBit [1#8] 0 0 = true ∧ readBit [2#8] 0 0 = false ∧
    (channelOf (counted 2 [2]) 2).state ≠ .faulted ∧
    (∀ j ∈ [2], j = 2) ∧ ∃ j ∈ [2, 4], j ≠ 2 := by
  unfold TablesCanonical Listed Ascending; decide +kernel

/-- A failure that adds to the sticky set and one that does not; a fault indication that changes and one that does
not. -/
theorem witness_FailedExchangeIsCounted_raised :
    let r := channelOf inRound 2
    addFault r.sticky .timeout ≠ r.sticky ∧
      addFault (addFault r.sticky .timeout) .timeout = addFault r.sticky .timeout ∧
      r.fault ≠ readBit [2#8] 0 1 ∧ r.fault = readBit [0#8] 0 1 := by decide +kernel

/-- A unit in PROBING on a RUNNING channel that was excluded while not contributing, which holds a record of entry 2,
and whose second good report makes it READY. -/
theorem witness_FailedExchangeIsCounted_excluded :
    let x : DropSection := { present := true, bytes := [1#8, 2#8, 3#8, 4#8] }
    let s := setUnit 1029
      { unitOf workedFleet 1029 with catalogue := fitting, state := .probing, run := 1, excluded := true, owesEvent := true }
      workedFleet
    TablesCanonical s ∧ (unitOf s 1029).state ≠ .ready ∧ (unitOf (dropReport 2 s (5, x)) 1029).state = .ready ∧
    (unitOf s 1029).excluded = true ∧ (unitOf s 1029).owesEvent = true ∧ onRunningChannel s 1029 = true ∧
    ∃ r ∈ s.shares, r.entry = 2 ∧ r.unit = 1029 := by
  unfold TablesCanonical Listed Ascending; decide +kernel

/-- With a round in flight, without one and no channel, without one and two channels. -/
theorem witness_ExchangeTimerBeginsARound :
    (inRound.resetHeld = false ∧ inRound.ctl.exchangeTimer.isSome = true ∧ inRound.ctl.round.isSome = true) ∧
    ((timed 100 0).ctl.round = none ∧ roundChannels (timed 100 0) = []) ∧
    (workedFleet.ctl.exchangeTimer.isSome = true ∧ workedFleet.ctl.round = none ∧ roundChannels workedFleet = [2, 4]) := by
  decide +kernel

/-- An obligation of 5 kW that no unit backs: SHORT, so the overall state changes; the longest endurance sold; a
round with its roll and figures, in each line mode. -/
theorem witness_RoundCompletionComputesTheMargin :
    let s := { inRound with book := { inRound.book with entries := [(3, sale .active 100 0)] } }
    s.ctl.round.isSome = true ∧ (completeRound s).margin.up.obligation = 5000 ∧
      (completeRound inRound).margin.up.obligation = 0 ∧
      (completeRound { s with fleet := State.reset.fleet }).margin.overall ≠ s.margin.overall ∧
      (completeRound inRound).margin.overall = inRound.margin.overall ∧
    (sale .active 100 0).product = .rsu ∧ enduranceOf s.book.endurance .rsu = 900 ∧ s.margin.mode = .level ∧
    ({ s.margin with mode := .latched }).mode = .latched ∧
    TablesCanonical s ∧ s.track.roll.isSome = true ∧
    ({ s.disp with figures := some (formFigures s) }).figures.isSome = true := by
  unfold TablesCanonical Listed Ascending; decide +kernel

/-- Code 0; endurance 0; 299 and 3601; 300 with an entry of the product and without one. -/
theorem witness_ProductSetsTheEndurance :
    CanTake (timed 100 0) .gl ∧ CanTake (selling .offered) .gl ∧ productOf (readU [0#8, 0, 0] 0 1) = none ∧
    (productOf (readU [2#8, 0, 0] 0 1) = some .rsu ∧ readU [2#8, 0, 0] 1 2 = 0) ∧
    (readU [2#8, 0x2B#8, 1#8] 1 2 = 299 ∧ ¬EnduranceInRange 299 ∧ readU [2#8, 0x11#8, 0x0E#8] 1 2 = 3601 ∧
      ¬EnduranceInRange 3601) ∧
    (readU [2#8, 0x2C#8, 1#8] 1 2 = 300 ∧ EnduranceInRange 300 ∧ EnduranceInRange 3600) ∧
    (∃ q ∈ (selling .offered).book.entries, q.2.product = .rsu ∧ nonTerminal q.2.state = true) ∧
    ((timed 100 0).book.entries = [] ∧ (timed 100 0).eval.slot = none ∧ (timed 100 0).eval.job = none) := by
  unfold CanTake EnduranceInRange; decide +kernel

/-- A book with every entry number in use. -/
def fullBook : State :=
  { timed 100 0 with book := { State.reset.book with
      entries := (List.range 1024).map fun n => (n, { sale .offered 150 0 with ref := n }) } }

theorem tableFind_of_mem {α : Type} (f : Nat → α) (k : Nat) :
    ∀ l : List Nat, k ∈ l → (tableFind (l.map fun n => (n, f n)) k).isSome = true
  | [], h => by simp at h
  | n :: t, h => by
    by_cases hn : n = k
    · simp [tableFind, hn]
    · simpa [tableFind, hn] using tableFind_of_mem f k t (by simpa [Ne.symm hn] using h)

theorem fullBook_full : ∀ k < 1024, (entryOf fullBook k).isSome = true := by
  intro k hk
  simp only [entryOf, fullBook]
  exact tableFind_of_mem _ k _ (List.mem_range.mpr hk)

theorem witness_TlRequestsWaitForTheirJob :
    let offer : List Byte := [7#8, 0, 0, 0, 2#8, 105#8, 0, 0, 0, 1#8, 5#8, 0, 1#8]
    (CanTake State.reset .tl ∧ State.reset.time.timeSet = false ∧ offer.length = 13) ∧
    (CanTake (timed 100 0) .tl ∧ (timed 100 0).time.timeSet = true ∧ productOf 4 = none ∧
      productOf (readU offer 4 1) = some .rsu) ∧
    CanTake fullBook .tl ∧ ((entryOf (selling .offered) 0).isSome = false ∧
      ∃ q ∈ (selling .offered).book.entries, q.2.ref = readU offer 0 4) ∧
    ¬(∃ q ∈ (timed 100 0).book.entries, q.2.ref = readU offer 0 4) := by
  unfold CanTake; decide +kernel

/-- Entry numbers 1024 and 1023, and a reference that is another entry's. -/
theorem witness_EntryIsFoundByNumberAndReference :
    CanTake (selling .awarded) .tl ∧ CanTake (selling .awarded) .gl ∧ (selling .awarded).time.timeSet = true ∧
    1023 < readU [0#8, 4#8, 7#8, 0, 0, 0] 0 2 ∧
    (readU [0xFF#8, 3#8, 7#8, 0, 0, 0] 0 2 ≤ 1023 ∧ entryOf (selling .awarded) 1023 = none) ∧
    (entryOf (selling .awarded) 3 = some (sale .awarded 104 0) ∧
      readU [3#8, 0, 8#8, 0, 0, 0] 2 4 ≠ (sale .awarded 104 0).ref) := by unfold CanTake; decide +kernel

theorem witness_AwardFixesTheQuantity :
    (CanTake State.reset .tl ∧ State.reset.time.timeSet = false) ∧
    (CanTake (selling .lapsed) .tl ∧ Names (selling .lapsed) [3#8, 0, 7#8, 0, 0, 0, 5#8, 0] 3 (sale .lapsed 104 0)) ∧
    (CanTake (selling .locked) .tl ∧ Names (selling .locked) [3#8, 0, 7#8, 0, 0, 0, 5#8, 0] 3 (sale .locked 104 0)) ∧
    (CanTake (selling .offered) .tl ∧ Names (selling .offered) [3#8, 0, 7#8, 0, 0, 0, 6#8, 0] 3 (sale .offered 104 0)) ∧
    readU [3#8, 0, 7#8, 0, 0, 0, 6#8, 0] 6 2 ≠ 0 ∧ readU [3#8, 0, 7#8, 0, 0, 0, 0, 0] 6 2 = 0 := by
  unfold CanTake Names; decide +kernel

/-- The last record of 5000 W against excesses of 5000, 4900, 4901 and 4999 W with q at 100. -/
theorem witness_TrimKeepsTheTarget :
    let rs := [share 0 3 0 .up 5000 104]
    powerSum rs ≤ 5000 ∧ 4930 ≤ powerSum rs ∧ (∀ r ∈ rs, r.power % 10 = 0) ∧ 4930 % 10 = 0 ∧
      20 < powerSum (trimRecords 100 20 rs) ∧
    (rs = [] ++ [share 0 3 0 .up 5000 104] ∧ (∀ x ∈ rs, 0 < x.power) ∧ 0 < powerSum rs) ∧
    (5000 ≤ powerSum rs - 0 ∧ powerSum rs - 100 + 100 ≤ 5000 ∧ powerSum rs - 100 < 5000) ∧
    (powerSum rs - 99 < 5000 ∧ 5000 < powerSum rs - 99 + 100 ∧ 5000 < powerSum rs - 1 + 100) := by decide

theorem witness_WithdrawAndDiscardEntries :
    let c : List Byte := [3#8, 0, 7#8, 0, 0, 0]
    (CanTake (selling .awarded) .tl ∧ Names (selling .awarded) c 3 (sale .awarded 104 0)) ∧
    (CanTake (selling .active) .tl ∧ Names (selling .active) c 3 (sale .active 104 0)) ∧
    (CanTake (selling .ended) .tl ∧ Names (selling .ended) c 3 (sale .ended 104 0) ∧
      nonTerminal EntryState.ended = false ∧ (tableFind (selling .ended).track.held 3).isSome = false) ∧
    (tableFind ({ (selling .ended).track with held := [(3, freshAccumulator 99)] }).held 3).isSome = true ∧
    TablesCanonical (selling .ended) := by
  unfold CanTake Names TablesCanonical Listed Ascending; decide +kernel

/-- An ACTIVE entry with its accumulator, another state with a full change list. -/
theorem witness_ReleaseTakesTheEntryOff :
    let c : List Byte := [3#8, 0, 7#8, 0, 0, 0]
    let a := { selling .active with track := { State.reset.track with current := [(3, freshAccumulator 100)] } }
    let others := (List.range 64).map fun n => { entry := n + 10, causeState := true, causeCover := false : ChangeMember }
    let f := { selling .locked with book := { (selling .locked).book with changes := others } }
    (CanTake (selling .offered) .gl ∧ Names (selling .offered) c 3 (sale .offered 104 0)) ∧
    (CanTake a .gl ∧ Names a c 3 (sale .active 104 0) ∧ tableFind a.track.current 3 = some (freshAccumulator 100) ∧
      a.track.queue = [] ∧ a.book.changes.length ≤ 64 ∧ a.book.changes.length ≠ 64) ∧
    (CanTake f .gl ∧ Names f c 3 (sale .locked 104 0) ∧ f.book.changes.length = 64 ∧
      ∀ m ∈ f.book.changes, m.entry ≠ 3) := by unfold CanTake Names; decide +kernel

theorem witness_ClosedEntriesEndOnlyByRelease :
    TablesCanonical closing ∧ entryOf closing 2 = some (sale .locked 100 30) ∧
    (exec .timeMark closing = .next (next .timeMark closing)) ∧ Instr.timeMark ≠ .reset := by
  refine ⟨?_, ?_, rfl, ?_⟩
  · unfold TablesCanonical Listed Ascending; decide +kernel
  · decide +kernel
  · decide

/-- A job in flight; nothing waiting; a TL request at run counts 0 and 4; flags on a live and a free number, each
the lowest; a range of one slot and of two; a running job, a channel that is not STOPPED and a lowered limit. -/
theorem witness_ArbiterDecidesInOrder :
    TablesCanonical (running (jobOf (.offer sixKw))) ∧ (running (jobOf (.offer sixKw))).eval.job.isSome = true ∧
    ((timed 100 0).eval.job = none ∧ (timed 100 0).eval.slot = none ∧ (timed 100 0).eval.replans = []) ∧
    (let s := { selling .locked with eval := { State.reset.eval with
        slot := some (.offer sixKw), runCount := 4, replans := [3, 9] } }
     TablesCanonical s ∧ s.eval.job = none ∧ s.eval.runCount = 4 ∧ ({ s.eval with runCount := 3 }).runCount ≠ 4 ∧
      (3 ∈ s.eval.replans ∧ ∀ k ∈ s.eval.replans, 3 ≤ k) ∧
      entryOf s 3 = some (sale .locked 104 0) ∧ nonTerminal (sale .locked 104 0).state = true ∧
      (9 ∈ [9] ∧ ∀ k ∈ [9], 9 ≤ k) ∧ entryOf s 9 = none) ∧
    (rangeOfferable (freeze workedFleet) workedFleet.shares .rsu 110 2 1029 = 3000 ∧
      rangeOfferable (freeze workedFleet) workedFleet.shares .rsu 111 1 1029 = 5000) ∧
    (channelOf (running (jobOf (.offer sixKw))) 2).state ≠ .stopped ∧ 5 < (feederOf workedFleet 3).exportKw := by
  unfold TablesCanonical Listed Ascending; decide +kernel

/-- A record that is continued, after a record with its number in another entry, and one with no record to follow. -/
theorem witness_ReplanCompletes :
    let e := sale .locked 104 0
    let s (j : Job) := { selling .locked with eval := { State.reset.eval with job := some j } }
    let j := jobOf (.replan 3 e)
    ((s j).resetHeld = false ∧ (s j).eval.job = some j ∧ j.kind = .replan 3 e ∧ entryOf (s j) 3 = some e) ∧
    entryOf (timed 100 0) 3 = none ∧ nonTerminal (sale .released 104 0).state = false ∧
    (j.boundaryTaken = false ∧ j.awardTaken = false ∧ j.plan.works = false) ∧
    ({ j with boundaryTaken := true }).boundaryTaken = true ∧
    ({ j with plan := { j.plan with works := true, target := 10 } }).plan.works = true ∧
    ({ j.plan with target := 10 }).target - j.plan.placed ≠ 0 ∧
    (let r := share 9 3 0 .up 100 104
     let other := share 4 2 0 .up 100 104
     let x := share 4 3 0 .up 500 104
     (∀ y ∈ [other], ¬(y.num = 4 ∧ y.entry = r.entry)) ∧ x.num = 4 ∧ x.entry = r.entry) := by decide +kernel

/-- A QUOTE, an OFFER refused INSUFFICIENT, one clamped, one refused POOL_FULL, one past its gate, and one that is booked as entry 0; three records for a
Share Table with room and grouped. -/
theorem witness_TlJobCompletes :
    let offer (o : OfferReq) (s : State) : Job :=
      { jobOf (.offer o) with plan := planOffer (freeze s) o }
    (running (jobOf (.quote quoteOne))).eval.job = some (jobOf (.quote quoteOne)) ∧
    offerOutcome (offer { sixKw with quantity := 7 } workedFleet) { sixKw with quantity := 7 } = .error .insufficient ∧
    offerOutcome (offer sixKw workedFleet) sixKw = .ok 6 ∧
    offerOutcome (offer { sixKw with quantity := 7, exact := false } workedFleet)
      { sixKw with quantity := 7, exact := false } = .ok 6 ∧
    (let j := offer sixKw workedFleet
     offerOutcome { j with plan := { j.plan with placed := 0, poolStopped := true } } sixKw = .error .poolFull) ∧
    (linkOf (running (offer sixKw workedFleet)) .tl).inProcess.isSome = true ∧
    (running (offer sixKw workedFleet)).time.slot + (running (offer sixKw workedFleet)).time.gate < sixKw.first ∧
    entryOf (running (offer sixKw workedFleet)) 0 = none ∧ sixKw.first ≤ (timed 106 0).time.slot + (timed 106 0).time.gate ∧
    3 + workedFleet.shares.length ≤ 32768 ∧ workedFleet.shares.Pairwise (fun a b => a.entry ≤ b.entry) := by
  decide +kernel

/-- 06, R104 and R108: the records of an OFFER take the lowest free numbers and join the end of their entry's list. -/
theorem test_offer_records_numbered :
    let rs := [share 1 2 1029 .up 100 110, share 0 4 1029 .up 100 110]
    writeNew ((freeNumbers rs 2).zip [share 0 3 1030 .up 900 110, share 0 3 2051 .up 2500 110]) rs =
      [share 1 2 1029 .up 100 110, share 2 3 1030 .up 900 110, share 3 3 2051 .up 2500 110,
       share 0 4 1029 .up 100 110] := by decide +kernel

/-- An OFFER booked in full; visits that place a new record with and without a free number left, enlarge a record of
the walk's range, and place nothing beside one of another range; an entry past its last slot; the replan of the worked example, with a record on a unit
that is LOST and an over-committed record, every record number once, and each record on a unit of its own. -/
theorem witness_OfferNeverBooksAboveItsQuantity :
    (freeze workedFleet).holdback < 1000 ∧ (0 : Nat) < 1000 ∧
    offerOutcome { jobOf (.offer sixKw) with plan := planOffer (freeze workedFleet) sixKw } sixKw = .ok 6 ∧
    (let f := freeze workedReplan
     let reaching := f.shares.filter fun r => r.entry == 5 && decide (60002 ≤ r.last)
     lastSlot { workedEntry with count := 1 } < max (f.slot + 1) workedEntry.first ∧
     60002 = max (f.slot + 1) workedEntry.first ∧ 60002 ≤ lastSlot workedEntry ∧
     (f.shares.map ShareRec.num).Nodup ∧ (reaching.map ShareRec.unit).Nodup ∧
     (frozenUnit f 2051).contributing = false ∧ (frozenUnit f 1029).contributing = true ∧
     reaching.map (reliefOf f f.shares 60002) = [0, 0, 690] ∧ reaching.map ShareRec.power = [900, 2500, 1870] ∧
     f.minShare ≤ 1870 - 690 ∧ reaching.length ≤ f.free ∧
     (f.shares.filter fun x => x.unit == 1029).length < 16 ∧
     (planReplan f 5 workedEntry).target ≠ 0 ∧ (∀ r ∈ f.shares, r.num < 32768)) ∧
    (let f := freeze workedFleet
     let k (free : Nat) : WalkTask := { product := .rsu, first := 110, count := 1, free := free, entry := some 4 }
     let w : Walk := { remaining := 6320, used := [], fresh := [], enlarged := [], lastUnit := none, stopped := false }
     let own := { share 9 4 2051 .up 100 110 with last := 110 }
     Ascending f.units ∧ (∀ p ∈ f.units, p.1 < 4096) ∧ f.start < 4096 ∧ Ascending w.used ∧ w.fresh.length < (k 1).free ∧
      (walkUnit f f.shares (k 1) w 1030).fresh = [(1030, 900)] ∧
      (walkUnit f f.shares (k 0) w 1030).stopped = true ∧ (k 0).free ≤ w.fresh.length ∧
      (walkUnit f (f.shares ++ [own]) (k 0) w 2051).enlarged = [{ target := 9, unit := 2051, add := 2400 }] ∧
      walkUnit f (f.shares ++ [{ own with last := 111 }]) (k 1) w 2051 = w) := by
  unfold Ascending; decide +kernel

theorem witness_OverrideIsExclusive :
    CanTake (timed 100 0) .gl ∧ (timed 100 0).disp.override = .none ∧
    (readBit [0#8, 50#8] 0 0 = false ∧ readBit [1#8, 51#8] 0 0 = true ∧ 50 < readU [1#8, 51#8] 1 1 ∧
      readU [1#8, 50#8] 1 1 ≤ 50) ∧
    (overrideOf (readU [3#8] 0 1) = none ∧ overrideOf (readU [1#8] 0 1) = some .halt ∧
      overrideOf (readU [2#8] 0 1) = some .fullUp) ∧
    (let s := { timed 100 0 with disp := { State.reset.disp with override := .halt } }
     CanTake s .gl ∧ s.disp.override ≠ .none) := by unfold CanTake; decide +kernel

theorem witness_TelegramIsTakenAtOnce :
    (timed 100 0).resetHeld = false ∧ [1#8].length ≠ 4 ∧
    (readBit [0#8, 1#8, 0, 0] 0 0 = false ∧ readU [0#8, 1#8, 0, 0] 1 1 ≠ 2 ∧ readU [0#8, 1#8, 0, 0] 1 1 ≠ 3) ∧
    readBit [1#8, 9#8, 0, 0] 0 0 = true ∧ readU [0#8, 2#8, 0, 0] 1 1 = 2 ∧ readU [0#8, 3#8, 0, 0] 1 1 = 3 ∧
    exec (.activate .gl 0#8 [0#8, 2#8, 9#8, 0]) (timed 100 0) =
      .next (next (.activate .gl 0#8 [0#8, 2#8, 9#8, 0]) (timed 100 0)) := by
  refine ⟨rfl, by decide, by decide, by decide, by decide, by decide, rfl⟩

/-- A sample of -120 mHz, one of 5001 mHz, and timers that run and do not. -/
theorem witness_SamplesAreHeldOrLost :
    (timed 100 0).disp.receiver = .hunting ∧
    (readS [0x88#8, 0xFF#8] 0 2 = -120 ∧
      (leBytes 2 (crc16 [0x88#8, 0xFF#8]).toNat).length = 2) ∧ readS [0x89#8, 0x13#8] 0 2 = 5001 ∧
    (timed 100 0).disp.frequencyWatch.isSome = true ∧ (timed 100 0).disp.silenceTimer = none ∧
    (next .frequencyWatchExpiry (timed 100 0)).disp.frequencyWatch = none ∧
    (next (.activate .gl 0#8 [1#8, 0, 0, 0]) (timed 100 0)).disp.silenceTimer.isSome = true := by decide +kernel

/-- Deviations of 10 and 11 mHz against a deadband of 10, and no sample. -/
theorem witness_FractionsFollowTheInputs :
    State.reset.disp.sample = none ∧ (-10 : Int).natAbs ≤ State.reset.disp.deadband ∧
      State.reset.disp.deadband < (11 : Int).natAbs := by decide

/-- Units 2561 and 2562 of the worked round, live within and beyond a bound, and 2563, not live. -/
theorem witness_TheTwoPassesHoldToTheBounds :
    let fraction : Product → Int := fractionOf (formFigures workedRound)
    let raw (i : Nat) := pairSum (unitPairs workedRound fraction i)
    (contributing workedRound 2561 = true ∧ -4000 ≤ raw 2561 ∧ raw 2561 ≤ 4000) ∧
    (contributing workedRound 2562 = true ∧ 0 < raw 2562) ∧ contributing workedRound 2563 = false ∧
    (let us := workedRound.fleet.units.map fun p => (p.1, { p.2 with pc := 10 })
     let charge := { workedRound with fleet := { workedRound.fleet with units := us } }
     contributing charge 2561 = true ∧ pairSum (unitPairs charge (fun _ => -1000) 2561) < -10) ∧
    ((0 : Int) < 2025 ∧ (-7 : Int) < 0) ∧ (([(20, 2000), (21, 25)] : List (Nat × Int)).map Prod.fst).Pairwise (· < ·) := by
  decide +kernel

/-- Each method, on tables in their one form. -/
theorem witness_SetpointsHoldTheFeederLimits :
    let withKind (o : Override) := { workedRound with disp := { workedRound.disp with override := o } }
    (formFigures workedRound).setpoints ≠ [] ∧ (formFigures workedRound).method = .normal ∧
    (formFigures (withKind .fullUp)).method = .fullUp ∧ (formFigures (withKind .fullUp)).setpoints ≠ [] ∧
    (formFigures (withKind .halt)).method = .zeroHalt ∧ (formFigures State.reset).method = .zeroUnset ∧
    TablesCanonical workedRound := by unfold TablesCanonical Listed Ascending; decide +kernel

/-- The boundary out of slot 99 with and without its round in flight; a held and a current accumulator. -/
theorem witness_AccountsFollowSlotsAndRounds :
    let roll : Roll := { entries := [{ entry := 3, product := .rsu, awarded := 5 }], slot := 99, period := 250 }
    let round : Round := { participating := [2], outstanding := [2], failed := [] }
    let k : Tracker := { current := [(3, freshAccumulator 99)], held := [], roll := some roll, reported := [], queue := [] }
    let s := { closing with track := k, ctl := { closing.ctl with round := some round } }
    TablesCanonical s ∧ s.ctl.round.isSome = true ∧ (s.track.roll.map Roll.slot) = some (freshAccumulator 99).slot ∧
      tableFind s.track.current 3 = some (freshAccumulator 99) ∧ (freshAccumulator 99).slot + 1 = s.time.slot ∧
      closing.ctl.round = none ∧ tableFind k.held 3 = none ∧
      tableFind ({ k with held := [(3, freshAccumulator 99)] }).held 3 = some (freshAccumulator 99) := by
  unfold TablesCanonical Listed Ascending; decide +kernel

theorem witness_TakeRemovesTheOldestRecord :
    CanTake State.reset .tl ∧ State.reset.track.queue = [] ∧
    (let r := formRecord 3 (sale .active 100 0) (freshAccumulator 100) false
     CanTake { State.reset with track := { State.reset.track with queue := [r] } } .tl) := by
  unfold CanTake; decide +kernel

theorem witness_MarginIsReadAndItsLineSet :
    CanTake State.reset .tl ∧ CanTake State.reset .gl ∧ State.reset.margin.mode = .level ∧
    2 < readU [3#8] 0 1 ∧ readU [2#8] 0 1 ≤ 2 ∧
    (next (.lineMode .gl 0#8 [2#8]) State.reset).margin.mode = .latched := by unfold CanTake; decide +kernel

/-- WARN 999; SHORT 900 under the lock; the same without it; and a lock that a command finds set. -/
theorem witness_ThresholdsClampAndLock :
    let locked := { State.reset with margin := { State.reset.margin with lock := true } }
    CanTake State.reset .gl ∧ CanTake locked .gl ∧
    ¬(readU [0#8, 0xE7#8, 3#8, 0, 0, 0] 1 2 = 0 ∨
      (1000 ≤ readU [0#8, 0xE7#8, 3#8, 0, 0, 0] 1 2 ∧ readU [0#8, 0xE7#8, 3#8, 0, 0, 0] 1 2 ≤ 2000)) ∧
    (locked.margin.lock = true ∧ readU [0#8, 0, 0, 0x84#8, 3#8, 0] 3 2 = 900 ∧ 900 ≠ locked.margin.short) ∧
    exec .timeMark locked = .next (next .timeMark locked) := by
  refine ⟨?_, ?_, by decide, by decide, rfl⟩ <;> unfold CanTake <;> decide

/-- FA names unit 1029, which holds records, and unit 1030, which holds none; the empty and the full queue. -/
theorem witness_SettingIsAppliedMergedOrQueued :
    let q (n : Nat) : QueuedSetting := { origin := .fa, unit := n, setting := .floor 300 }
    let full := { mapped with queue := (List.range 32).map q }
    CanTake mapped .fa ∧ mapOf mapped .fa = some mapped.links.mapA ∧ CanTake full .fa ∧
    permitted mapped.links.mapA 4096 = false ∧ permitted mapped.links.mapA 4095 = true ∧
    (settingOf 4 0 = none ∧ settingOf (readU [5#8, 4#8, 1#8, 0, 0] 2 1) 0 = some (.floor 0)) ∧
    ((∃ r ∈ mapped.shares, r.unit = 1029) ∧ ¬∃ r ∈ mapped.shares, r.unit = 1030) ∧
    (full.queue = [] ++ q 0 :: (List.range 31).map (fun n => q (n + 1)) ∧ mapped.queue.length < 32 ∧
      32 ≤ full.queue.length ∧ ∀ k ∈ full.queue, ¬(k.unit = 1029 ∧ sameField k.setting (.floor 1) = true)) := by
  unfold CanTake; decide +kernel

theorem witness_OwnerLimitsAreCoupled :
    TablesCanonical workedFleet ∧ (unitOf workedFleet 5).state = .empty ∧ (unitOf workedFleet 1029).state ≠ .empty ∧
    LimitsHold (unitOf workedFleet 1029) ∧ contributing workedFleet 1029 = true ∧
    (let s := setUnit 1029 { unitOf workedFleet 1029 with excluded := true } workedFleet
     contributing s 1029 = false ∧ (unitOf s 1029).state = .ready ∧
      (channelOf s (channelOfUnit 1029)).state = .running) ∧
    (unitOf (applySetting 1029 (.floor 1) workedFleet) 1029).excluded = (unitOf workedFleet 1029).excluded := by
  unfold TablesCanonical Listed Ascending LimitsHold; decide +kernel

/-- Selectors 0, 1, 2; limit 4097; an overlap with FA's full map; a query; and a request that is taken. -/
theorem witness_MapWritesOneMap :
    let c (sel flags : Byte) (limit : List Byte) : List Byte := sel :: flags :: limit ++ [0, 0, 1#8, 0]
    CanTake mapped .tl ∧ selectorOf 0 = none ∧ selectorOf (readU (c 2#8 0 [0, 0]) 0 1) = some .fb ∧
    (mapOf mapped .fb = some mapped.links.mapB ∧ mapOf mapped (otherFleet .fb) = some mapped.links.mapA) ∧
    readBit (c 2#8 1#8 [0, 0]) 1 0 = true ∧ 4096 < readU (c 2#8 2#8 [1#8, 0x10#8]) 2 2 ∧
    (readU (c 2#8 2#8 [1#8, 0]) 2 2 = readU (c 2#8 2#8 [1#8, 0]) 4 2 + readU (c 2#8 2#8 [1#8, 0]) 6 2 ∧
      readBit (c 2#8 2#8 [1#8, 0]) 1 1 = true ∧ permitted mapped.links.mapA 0 = true) ∧
    permitted mapped.links.mapB 0 = false := by unfold CanTake; decide +kernel

theorem witness_ReceivedFramesAreJudgedInOrder :
    ((running (jobOf (.offer sixKw))).resetHeld = false ∧
      (linkOf (running (jobOf (.offer sixKw))) .tl).inProcess.isSome = true) ∧
    (CanTake mapped .fa ∧ requestOf 0x80#8 = none) ∧
    (allowed .gate (classOf .fa) = false ∧ allowed .set (classOf .fa) = true ∧ [0#8].length ≠ contentsLength .set) ∧
    (allowed .start (classOf .fa) = true ∧ ∀ k < 8, (readU [0#8] 0 1).testBit k = false) ∧
    (readU [0#8, 0, 0] 2 1 = 0 ∧ 64 < readU [0#8, 0, 65#8] 2 1 ∧
      4095 < readU [0xC1#8, 0x0F#8, 64#8] 0 2 + readU [0xC1#8, 0x0F#8, 64#8] 2 1 - 1) ∧
    (mapOf mapped .fb = some mapped.links.mapB ∧ CanTake mapped .fb ∧ (readU [1#8] 0 1).testBit 0 = true ∧
      permitted mapped.links.mapB 0 = false) ∧
    takeOf .gate .gl [9#8] mapped = (mapped, .answer .badRange []) := by unfold CanTake; decide +kernel

/-- Contents of 0 and of 30 bytes. -/
theorem witness_MasterFramesAreReadBack :
    ([] : List Byte).length ≤ 30 ∧ (List.replicate 30 0xC3#8).length ≤ 30 ∧ (linkOf mapped .fb).receiver = .hunting := by
  decide +kernel

/-- Declared lengths of 1, 2, 32 and 33, and a frame of 2 whose check does not match. -/
theorem witness_DiscardedFramesChangeNothing :
    mapped.resetHeld = false ∧ (receiveChar (linkOf mapped .fa).receiver (.ok 0#8)).2.isSome = false ∧
    (0x3C#8 : Byte) ≠ 0xC3#8 ∧ readU [1#8, 0#8] 0 2 < 2 ∧ 32 < readU [33#8, 0#8] 0 2 ∧
    (2 ≤ readU [2#8, 0, 9#8, 9#8, 0, 0] 0 2 ∧ [2#8, 0, 9#8, 9#8, 0, 0].length = readU [2#8, 0, 9#8, 9#8, 0, 0] 0 2 + 4 ∧
      readU [2#8, 0, 9#8, 9#8, 0, 0] 4 2 ≠ (crc16 [2#8, 0, 9#8, 9#8]).toNat) ∧ readU [32#8, 0#8] 0 2 ≤ 32 := by
  decide +kernel

/-- A link with every kind of frame waiting, and the same link with less and less. -/
theorem witness_TransmitterServesInOrder :
    let a := formAnswer State.reset 1#8 .done []
    let r : LinkRec := { LinkRec.reset with telegram := some a, answers := [{ answer := a, ends := true }], busy := some a,
                                            notices := { NoticeFlags.none with override := true } }
    r.tx = .free ∧ r.telegram = some a ∧ r.answers = [{ answer := a, ends := true }] ∧ r.busy = some a ∧
    LinkRec.reset.telegram = none ∧ LinkRec.reset.answers = [] ∧ LinkRec.reset.busy = none ∧
    noticeGet r.notices .override = true ∧
    (∀ b ∈ [NoticeKind.entry, .margin, .channel, .freqLost, .operatorSilent, .timeMark, .records],
      noticeGet r.notices b = false) ∧
    (linkOf (setLink .tl { r with tx := .sending (.answer true) [] } State.reset) .tl).tx = .sending (.answer true) [] ∧
    SentKind.busy ≠ .answer true := by decide +kernel

theorem witness_FreeLineTakesItsNextFrame :
    let d : Discovery := { step := .arm, attempt := 1, position := 0, page := 0, records := [] }
    let s (h a x : Bool) := setChannel 0 { ChannelRec.reset with
      state := .starting, discovery := some d, haltPending := h, armPending := a, exchangePending := x } State.reset
    (channelOf (lineIn (.awaiting .arm .discovery 60) none) 0).line ≠ .free ∧
    ((channelOf (s true true true) 0).line = .free ∧ (channelOf (s true true true) 0).haltPending = true) ∧
    ((channelOf (s false true true) 0).haltPending = false ∧ (channelOf (s false true true) 0).armPending = true) ∧
    ((channelOf (s false false true) 0).armPending = false ∧ (channelOf (s false false true) 0).exchangePending = true) ∧
    ((channelOf (s false false false) 0).state = .starting ∧ (channelOf (s false false false) 0).discovery = some d) ∧
    (channelOf State.reset 0).state ≠ .starting := by decide +kernel

/-- Canonical tables; a line that is not free; a job in flight and none; free and busy transmitters; and a
TIME_MARK notice, of the expiry of the mark watch, that is first to go while a time mark waits. -/
theorem witness_SettleServesWhatWaits :
    TablesCanonical inRound ∧ (channelOf (lineIn (.awaiting .arm .discovery 60) none) 0).line ≠ .free ∧
    (running (jobOf (.offer sixKw))).eval.job.isSome = true ∧ (settle (timed 100 0)).eval.job = none ∧
    (channelOf (settle (timed 100 0)) 7).line = .free ∧ (linkOf (settle (timed 100 0)) .fb).tx = .free ∧
    (linkOf (settle (raiseOn .fb .override (timed 100 0))) .fb).tx ≠ .free ∧
    (let s := enterHoldover { timed 100 0 with pending := [.timeMark] }
     s.pending.head? = some .timeMark ∧ timeMarkNext (linkOf s .tl) = true ∧
      timeMarkNext (linkOf (timed 100 0) .tl) = false) := by
  unfold TablesCanonical Listed Ascending; decide +kernel

/-- The worked fleet, with an entry and its records, a round in flight and a mark that brings a boundary. -/
def busyPart : State :=
  { inRound with
    time := { inRound.time with second := 899 }
    book := { inRound.book with entries := [(2, { sale .active 99 0 with product := .fsr }), (3, sale .locked 110 0)] }
    track := { inRound.track with current := [(2, freshAccumulator 100)] }
    margin := { inRound.margin with up := { MarginDir.reset with state := .thin }, overall := .thin, asserted := true }
    links := { mapped.links with tl := { LinkRec.reset with
      inProcess := some { code := 0x01#8, tag := 5#8 } } }
    eval := { inRound.eval with slot := some (.quote quoteOne) }
    pending := [.timeMark, .exchangeTimerExpiry] }

theorem busyPart_steps : step busyPart = .next (next .timeMark { busyPart with pending := [.exchangeTimerExpiry] }) := rfl

theorem witness_EveryStepKeepsTheTables : TablesCanonical busyPart := by
  unfold TablesCanonical Listed Ascending; decide +kernel

theorem witness_EveryStepKeepsTheRanges : SettingsInRange busyPart ∧ TimeInRange busyPart ∧ OwnerLimits busyPart := by
  refine ⟨?_, ?_, ?_⟩
  · refine ⟨by decide, by decide, by decide, by decide, ?_, by decide, by decide⟩
    intro p; cases p <;> unfold EnduranceInRange <;> decide
  · unfold TimeInRange; decide
  · unfold OwnerLimits LimitsHold; decide +kernel

theorem witness_EveryStepKeepsTheBounds :
    AwardsWithinOffers busyPart ∧ QueuesBounded busyPart ∧ SharesNumbered busyPart := by
  refine ⟨?_, ?_, ?_⟩
  · intro p hp a ha
    simp only [busyPart, sale, List.mem_cons, List.not_mem_nil, or_false] at hp
    rcases hp with rfl | rfl <;> simp_all
  · unfold QueuesBounded SameSlotInQueue; decide +kernel
  · unfold SharesNumbered; decide +kernel

theorem witness_EveryStepKeepsTheMapsApart : MapsDisjoint busyPart := by
  refine ⟨⟨by decide, ?_⟩, ⟨by decide, ?_⟩, ?_⟩
  · intro i hi; exact BitVec.getLsbD_of_ge _ _ hi
  · intro i _; simp [busyPart, mapped, workedFleet, State.reset, UnitMap.reset]
  · intro i; simp [busyPart, mapped, workedFleet, State.reset, UnitMap.reset]

theorem witness_EveryStepKeepsOneRequest : OneRequestInProcess busyPart := by
  intro l; cases l <;> decide +kernel

theorem witness_EveryStepKeepsTheRounds : RoundOpen busyPart ∧ ChannelsConsistent busyPart := by
  refine ⟨⟨by decide, rfl⟩, ?_, ?_⟩
  · intro c
    simp only [channelOf, tableGet, busyPart, inRound, workedFleet, tableFind]
    split <;> [skip; split] <;> simp [ChannelRec.reset]
  · intro r hr c hc
    simp only [busyPart, inRound, Option.some.injEq] at hr
    subst hr
    simp only [List.mem_singleton] at hc
    subst hc
    decide +kernel

theorem witness_EveryStepKeepsTheMargin : MarginConsistent busyPart := by unfold MarginConsistent; decide +kernel

end Sys2Proof.Tests
end

