-- ==== Sys2Proof/Proofs/TimeMark.lean ====
section
/-! PROOF. The second step by the state of the clock (R1), and the time mark that takes one or ends holdover
(R2). -/

namespace Sys2Proof.Machine

/-! ### The second step (R1) -/

theorem secondStep_of_unset {s : State} (unset : s.time.timeSet = false) : secondStep s = s := by
  simp [secondStep, unset]

theorem secondStep_within_slot {s : State} (set : s.time.timeSet = true) (hv : s.time.second < 899) :
    secondStep s = { s with time := { s.time with second := s.time.second + 1 } } := by
  simp [secondStep, set, hv]

/-- At the end of the last slot the second wraps and no slot follows. -/
theorem secondStep_in_lastSlot {s : State} (set : s.time.timeSet = true) (hv : s.time.second = 899)
    (hlast : s.time.slot = Config.maxSlot) :
    secondStep s = { s with time := { s.time with second := 0 } } := by
  simp [secondStep, set, hv, hlast]

theorem secondStep_into_nextSlot {s : State} (set : s.time.timeSet = true) (hv : s.time.second = 899)
    (hlast : s.time.slot ≠ Config.maxSlot) :
    secondStep s = slotBoundary { s with time := { s.time with second := 0, slot := s.time.slot + 1 } } := by
  simp [secondStep, set, hv, hlast]

/-! ### The time mark (R2) -/

/-- A command's effect on a part that is not held in reset. -/
theorem effect_of_released {s : State} (released : s.resetHeld = false) (f : State → State) :
    effect f s = .next (settle (f s)) := by
  simp [effect, released]

/-- In holdover the mark ends holdover and no second is counted. -/
theorem exec_timeMark_of_holdover {s : State} (released : s.resetHeld = false) (ho : s.time.holdover = true) :
    exec .timeMark s = .next (settle (raiseTlGl .timeMark { s with time := { s.time with
      holdover := false, holdoverTimer := none, markWatch := some 2000 } })) := by
  have taken : takeTimeMark s = raiseTlGl .timeMark { s with time := { s.time with
      holdover := false, holdoverTimer := none, markWatch := some 2000 } } := by
    simp [takeTimeMark, ho]
  exact taken ▸ effect_of_released released takeTimeMark

/-- Outside holdover the mark takes a second step and restarts the mark watch. -/
theorem exec_timeMark_outside_holdover {s : State} (released : s.resetHeld = false)
    (ho : s.time.holdover = false) :
    exec .timeMark s = .next (settle
      { secondStep s with time := { (secondStep s).time with markWatch := some 2000 } }) := by
  have taken : takeTimeMark s =
      { secondStep s with time := { (secondStep s).time with markWatch := some 2000 } } := by
    simp [takeTimeMark, ho]
  exact taken ▸ effect_of_released released takeTimeMark

/-- Settles O4: by the mark's two effects, and outside holdover by the four cases of the second step. -/
theorem timeMarkCountsASecond : Obligations.TimeMarkCountsASecond := by
  intro s released
  refine ⟨exec_timeMark_of_holdover released, fun ho unset => ?unset, fun ho set hv => ?within,
    fun ho set hv hlast => ?last, fun ho set hv hlast => ?next⟩ <;>
    rw [exec_timeMark_outside_holdover released ho]
  case unset => rw [secondStep_of_unset unset]
  case within => rw [secondStep_within_slot set hv]
  case last => rw [secondStep_in_lastSlot set hv hlast]
  case next => rw [secondStep_into_nextSlot set hv hlast]

end Sys2Proof.Machine
end

