-- ==== Sys2Proof/Proofs/Gate.lean ====
section
/-! PROOF. GATE: what holds the gate-closure offset, and how the Time Base takes each value (R8). -/

namespace Sys2Proof.Machine

/-! ### What holds the offset -/

theorem beforeGate_iff (e : Entry) : beforeGate e = true ↔ e.state = .offered ∨ e.state = .awarded := by
  simp [beforeGate]

/-- There is an OFFER in progress exactly when one waits in the TL job slot or runs as the job. -/
theorem offersInProgress_ne_nil (s : State) :
    offersInProgress s ≠ [] ↔
      (∃ o, s.eval.slot = some (.offer o)) ∨ ∃ j o, s.eval.job = some j ∧ j.kind = .offer o := by
  unfold offersInProgress
  rw [ne_eq, List.append_eq_nil_iff, not_and_or]
  refine or_congr ?waiting ?running
  case waiting =>
    rcases s.eval.slot with _ | ⟨q⟩ | ⟨o⟩ <;> simp
  case running =>
    rcases s.eval.job with _ | j
    · simp
    · rcases hk : j.kind with q | o | ⟨n, e⟩ <;> simp [hk]

theorem gateHeld_iff (s : State) :
    gateHeld s = true ↔
      (∃ p ∈ s.book.entries, p.2.state = .offered ∨ p.2.state = .awarded) ∨
        (∃ o, s.eval.slot = some (.offer o)) ∨ ∃ j o, s.eval.job = some j ∧ j.kind = .offer o := by
  rw [← offersInProgress_ne_nil]
  simp [gateHeld, beforeGate_iff]

/-- The end of a frame's reception leaves what holds the offset as it is. -/
@[simp] theorem gateHeld_frameComplete (l : Link) (s : State) : gateHeld (frameComplete l s) = gateHeld s := by
  simp [gateHeld, offersInProgress]

/-! ### The request taken -/

/-- A request that no check of its frame refuses, and that its block answers at once, ends with that answer owed. -/
theorem receiveRequest_answered {q : Request} {l : Link} {c : List Byte} {s t : State} {code : AnswerCode}
    {result : List Byte} {take : Link → List Byte → State → State × Reply} (h : CanTake s l)
    (hr : frameRefusal q l c s = none) (taken : take l c (frameComplete l s) = (t, .answer code result))
    (tag : Byte) :
    effect (receiveRequest q take l tag c) s = .next (settle (answered q l tag code result t)) := by
  rw [receiveRequest_taken h hr, handOn_eq, taken]

/-- GATE on GL ends with the answer that the Time Base gives it. -/
theorem exec_gate_answered {c : List Byte} {s t : State} {code : AnswerCode} {result : List Byte}
    (h : CanTake s .gl) (hc : c.length = 1)
    (taken : takeGate .gl c (frameComplete .gl s) = (t, .answer code result)) (tag : Byte) :
    exec (.gate .gl tag c) s = .next (settle (answered .gate .gl tag code result t)) :=
  receiveRequest_answered h (frameRefusal_master s (.inr rfl) rfl hc rfl) taken tag

/-! ### The Time Base's answer -/

theorem takeGate_of_query {c : List Byte} (hv : readU c 0 1 = 0) (l : Link) (s : State) :
    takeGate l c s = (s, done (putU 1 s.time.gate)) := by
  simp [takeGate, hv]

theorem takeGate_of_badRange {c : List Byte} (hv : 8 < readU c 0 1) (l : Link) (s : State) :
    takeGate l c s = (s, refuse .badRange) := by
  have nonzero : readU c 0 1 ≠ 0 := by omega
  simp [takeGate, nonzero, hv]

theorem takeGate_of_held {c : List Byte} {s : State} (hlo : 1 ≤ readU c 0 1) (hhi : readU c 0 1 ≤ 8)
    (held : gateHeld s = true) (l : Link) : takeGate l c s = (s, refuse .wrongState) := by
  have nonzero : readU c 0 1 ≠ 0 := by omega
  simp [takeGate, nonzero, not_lt.mpr hhi, held]

theorem takeGate_of_free {c : List Byte} {s : State} (hlo : 1 ≤ readU c 0 1) (hhi : readU c 0 1 ≤ 8)
    (free : gateHeld s = false) (l : Link) :
    takeGate l c s =
      ({ s with time := { s.time with gate := readU c 0 1 } }, done (putU 1 (readU c 0 1))) := by
  have nonzero : readU c 0 1 ≠ 0 := by omega
  simp [takeGate, nonzero, not_lt.mpr hhi, free]

/-- Settles O7: by the four answers of the Time Base, with what holds the offset read off `gateHeld`. -/
theorem gateSetsTheOffset : Obligations.GateSetsTheOffset := by
  refine ⟨rfl, fun tag c s h hc => ⟨fun hv => ?query, fun hv => ?badRange, fun hlo hhi held => ?wrongState,
    fun hlo hhi free => ?set⟩⟩
  case query => exact exec_gate_answered h hc (takeGate_of_query hv ..) tag
  case badRange => exact exec_gate_answered h hc (takeGate_of_badRange hv ..) tag
  case wrongState =>
    have holds : gateHeld (frameComplete .gl s) = true := by simpa using (gateHeld_iff s).mpr held
    exact exec_gate_answered h hc (takeGate_of_held hlo hhi holds _) tag
  case set =>
    have holdsNot : gateHeld (frameComplete .gl s) = false := by
      simpa using mt (gateHeld_iff s).mp free
    exact exec_gate_answered h hc (takeGate_of_free hlo hhi holdsNot _) tag

end Sys2Proof.Machine
end

