-- ==== Sys2Proof/Proofs/Product.lean ====
section
/-! PROOF. PRODUCT: what holds a product's endurance, and how the Commitment Book takes each value (R60). -/

namespace Sys2Proof.Machine

/-! ### What holds a product's endurance -/

/-- The OFFERs in progress are the one that waits in the TL job slot and the one that runs as the job. -/
theorem mem_offersInProgress (o : OfferReq) (s : State) :
    o ∈ offersInProgress s ↔
      s.eval.slot = some (.offer o) ∨ ∃ j, s.eval.job = some j ∧ j.kind = .offer o := by
  unfold offersInProgress
  rw [List.mem_append]
  refine or_congr ?waiting ?running
  case waiting =>
    rcases s.eval.slot with _ | ⟨q⟩ | ⟨o'⟩ <;> simp [eq_comm]
  case running =>
    rcases s.eval.job with _ | j
    · simp
    · rcases hk : j.kind with q | o' | ⟨n, e⟩ <;> simp [hk, eq_comm]

theorem productHeld_iff (s : State) (p : Product) :
    productHeld s p = true ↔
      (∃ q ∈ s.book.entries, q.2.product = p ∧ nonTerminal q.2.state = true) ∨
        (∃ o, s.eval.slot = some (.offer o) ∧ o.product = p) ∨
        ∃ j o, s.eval.job = some j ∧ j.kind = .offer o ∧ o.product = p := by
  have offers : (∃ o ∈ offersInProgress s, o.product = p) ↔
      (∃ o, s.eval.slot = some (.offer o) ∧ o.product = p) ∨
        ∃ j o, s.eval.job = some j ∧ j.kind = .offer o ∧ o.product = p := by
    simp only [mem_offersInProgress, or_and_right, exists_or]
    refine or_congr_right ⟨?_, ?_⟩
    · rintro ⟨o, ⟨j, hj, hk⟩, ho⟩; exact ⟨j, o, hj, hk, ho⟩
    · rintro ⟨j, o, hj, hk, ho⟩; exact ⟨o, ⟨j, hj, hk⟩, ho⟩
  simp only [productHeld, Bool.or_eq_true, List.any_eq_true, Bool.and_eq_true, decide_eq_true_eq, offers]

/-- The end of a frame's reception leaves what holds a product's endurance as it is. -/
@[simp] theorem productHeld_frameComplete (l : Link) (s : State) (p : Product) :
    productHeld (frameComplete l s) p = productHeld s p := by
  simp [productHeld, offersInProgress]

/-! ### The endurance set -/

theorem enduranceFits_iff (v : Nat) : enduranceFits v = true ↔ EnduranceInRange v := by
  simp [enduranceFits, EnduranceInRange, and_assoc]

@[simp] theorem enduranceOf_setEndurance (t : ProductTable) (p : Product) (v : Nat) :
    enduranceOf (setEndurance t p v) p = v := by
  cases p <;> rfl

/-! ### The Commitment Book's answer -/

theorem setProduct_of_query (p : Product) (s : State) :
    setProduct p 0 s = (s, done (productForm s.book.endurance p)) := by
  simp [setProduct]

theorem setProduct_of_badRange {v : Nat} (nonzero : v ≠ 0) (out : ¬EnduranceInRange v) (p : Product) (s : State) :
    setProduct p v s = (s, refuse .badRange) := by
  simp [setProduct, nonzero, mt (enduranceFits_iff v).mp out]

theorem setProduct_of_held {v : Nat} {p : Product} {s : State} (fits : EnduranceInRange v)
    (held : productHeld s p = true) : setProduct p v s = (s, refuse .wrongState) := by
  have nonzero : v ≠ 0 := by have := fits.1; omega
  simp [setProduct, nonzero, (enduranceFits_iff v).mpr fits, held]

theorem setProduct_of_free {v : Nat} {p : Product} {s : State} (fits : EnduranceInRange v)
    (free : productHeld s p = false) :
    setProduct p v s =
      ({ s with book := { s.book with endurance := setEndurance s.book.endurance p v } },
        done (putU 1 (dirCode (classOfProduct p)) ++ putU 2 v)) := by
  have nonzero : v ≠ 0 := by have := fits.1; omega
  simp [setProduct, nonzero, (enduranceFits_iff v).mpr fits, free, productForm]

/-! ### The request taken -/

/-- PRODUCT on GL ends with the answer that the Commitment Book gives it. -/
theorem exec_product_answered {c : List Byte} {s t : State} {code : AnswerCode} {result : List Byte}
    (h : CanTake s .gl) (hc : c.length = 3)
    (taken : takeProduct .gl c (frameComplete .gl s) = (t, .answer code result)) (tag : Byte) :
    exec (.product .gl tag c) s = .next (settle (answered .product .gl tag code result t)) :=
  receiveRequest_answered h (frameRefusal_master s (.inr rfl) rfl hc rfl) taken tag

theorem takeProduct_of_unknown {c : List Byte} (unknown : productOf (readU c 0 1) = none) (l : Link) (s : State) :
    takeProduct l c s = (s, refuse .badRequest) := by
  simp [takeProduct, unknown]

theorem takeProduct_of_known {c : List Byte} {p : Product} (known : productOf (readU c 0 1) = some p) (l : Link)
    (s : State) : takeProduct l c s = setProduct p (readU c 1 2) s := by
  simp [takeProduct, known]

/-- Settles O23: by the refusal of an unknown product and the four answers for a known one, with what holds
its endurance read off `productHeld`. -/
theorem productSetsTheEndurance : Obligations.ProductSetsTheEndurance := by
  intro tag c s h hc
  refine ⟨fun unknown => exec_product_answered h hc (takeProduct_of_unknown unknown ..) tag, fun p known => ?_⟩
  have answer {t : State} {code : AnswerCode} {result : List Byte}
      (set : setProduct p (readU c 1 2) (frameComplete .gl s) = (t, .answer code result)) :
      exec (.product .gl tag c) s = .next (settle (answered .product .gl tag code result t)) :=
    exec_product_answered h hc ((takeProduct_of_known known ..).trans set) tag
  refine ⟨fun query => ?query, fun nonzero out => ?badRange, fun fits held => ?wrongState,
    fun fits free => ?set⟩
  case query => exact answer (query ▸ setProduct_of_query ..)
  case badRange => exact answer (setProduct_of_badRange nonzero out ..)
  case wrongState =>
    have holds : productHeld (frameComplete .gl s) p = true := by simpa using (productHeld_iff s p).mpr held
    exact answer (setProduct_of_held fits holds)
  case set =>
    have holdsNot : productHeld (frameComplete .gl s) p = false := by
      simpa using mt (productHeld_iff s p).mp free
    exact answer (setProduct_of_free fits holdsNot)

end Sys2Proof.Machine
end

/-! PROOF. The fractions and the method of a round: no way of placing power changes what the round's inputs
give (R124, R128, R131). -/

namespace Sys2Proof.Machine

/-! ### The FSR fraction (R124) -/

@[simp] theorem fractionFsr_of_noSample (db : Nat) : fractionFsr none db = 0 := rfl

theorem fractionFsr_within_deadband {d : Int} {db : Nat} (within : d.natAbs ≤ db) : fractionFsr (some d) db = 0 :=
  if_pos within

theorem fractionFsr_beyond_deadband {d : Int} {db : Nat} (beyond : db < d.natAbs) :
    fractionFsr (some d) db = max (-1000) (min 1000 (-5 * d)) :=
  if_neg (not_le.mpr beyond)

theorem fractionFsr_bounds (sample : Option Int) (db : Nat) :
    -1000 ≤ fractionFsr sample db ∧ fractionFsr sample db ≤ 1000 := by
  rcases sample with _ | d
  case none => simp
  case some =>
    rcases le_or_gt d.natAbs db with within | beyond
    · simp [fractionFsr_within_deadband within]
    · rw [fractionFsr_beyond_deadband beyond]; omega

/-! ### The restoration fractions (R128) -/

theorem fractionRestoration_le (requested awarded : Nat) : fractionRestoration requested awarded ≤ 1000 := by
  unfold fractionRestoration
  split
  · exact Nat.zero_le _
  · exact min_le_left ..

/-- The awarded total is taken over the ACTIVE entries of the product alone. -/
theorem awardedTotal_eq_sum_filter (s : State) (p : Product) :
    awardedTotal s p =
      ((s.book.entries.filter fun q => q.2.state == .active && q.2.product == p).map fun q =>
        q.2.awarded.getD 0).sum := by
  unfold awardedTotal
  induction s.book.entries with
  | nil => rfl
  | cons q qs ih =>
    by_cases counts : q.2.state = .active ∧ q.2.product = p
    · simp [counts, ih]
    · simp [counts, ih]

/-! ### What the placing of power leaves as it is -/

/-- A round's figures without what the placing of power on the units gives: the part that the round's inputs
alone decide. -/
def RoundFigures.unplaced (f : RoundFigures) : RoundFigures :=
  { f with setpoints := [], duties := [], orphans := [], orphan := 0, shortfall := 0, exportClamp := 0,
           importClamp := 0, positiveSum := 0, negativeSum := 0 }

theorem unplaced_finishFigures (s : State) (f : RoundFigures) (us : List UnitShare) :
    (finishFigures s f us).unplaced = f.unplaced := rfl

theorem unplaced_baseFigures (s : State) : (baseFigures s).unplaced = baseFigures s := rfl

/-- Whatever the method, a round begins from its base figures. -/
theorem unplaced_formFigures (s : State) : (formFigures s).unplaced = baseFigures s := by
  dsimp only [formFigures]
  cases (baseFigures s).method with
  | zeroUnset => exact unplaced_baseFigures s
  | zeroHalt => exact unplaced_baseFigures s
  | fullUp => exact (unplaced_finishFigures ..).trans (unplaced_baseFigures s)
  | normal => exact (unplaced_finishFigures ..).trans (unplaced_baseFigures s)

section
variable (s : State)

@[simp] theorem formFigures_aF : (formFigures s).aF = fractionFsr s.disp.sample s.disp.deadband :=
  congrArg RoundFigures.aF (unplaced_formFigures s)

@[simp] theorem formFigures_aU :
    (formFigures s).aU = fractionRestoration s.disp.requestedU (awardedTotal s .rsu) :=
  congrArg RoundFigures.aU (unplaced_formFigures s)

@[simp] theorem formFigures_aD :
    (formFigures s).aD = fractionRestoration s.disp.requestedD (awardedTotal s .rsd) :=
  congrArg RoundFigures.aD (unplaced_formFigures s)

@[simp] theorem formFigures_awardedU : (formFigures s).awardedU = awardedTotal s .rsu :=
  congrArg RoundFigures.awardedU (unplaced_formFigures s)

@[simp] theorem formFigures_awardedD : (formFigures s).awardedD = awardedTotal s .rsd :=
  congrArg RoundFigures.awardedD (unplaced_formFigures s)

@[simp] theorem formFigures_excessU :
    (formFigures s).excessU = decide (awardedTotal s .rsu < s.disp.requestedU) :=
  congrArg RoundFigures.excessU (unplaced_formFigures s)

@[simp] theorem formFigures_excessD :
    (formFigures s).excessD = decide (awardedTotal s .rsd < s.disp.requestedD) :=
  congrArg RoundFigures.excessD (unplaced_formFigures s)

@[simp] theorem formFigures_method : (formFigures s).method = methodOf s.time.timeSet s.disp.override :=
  congrArg RoundFigures.method (unplaced_formFigures s)

end

/-- All three fractions are in their range, and a restoration fraction is never negative. -/
theorem formFigures_fraction_bounds (s : State) :
    -1000 ≤ (formFigures s).aF ∧ (formFigures s).aF ≤ 1000 ∧ 0 ≤ (formFigures s).aU ∧ (formFigures s).aU ≤ 1000 ∧
      0 ≤ (formFigures s).aD ∧ (formFigures s).aD ≤ 1000 := by
  have ⟨lower, upper⟩ := fractionFsr_bounds s.disp.sample s.disp.deadband
  have up := fractionRestoration_le s.disp.requestedU (awardedTotal s .rsu)
  have down := fractionRestoration_le s.disp.requestedD (awardedTotal s .rsd)
  simp only [formFigures_aF, formFigures_aU, formFigures_aD]
  omega

/-- Settles O38: the figures of every method keep the base figures' fractions, totals, flags and method, which
the lemmas on each fraction give. -/
theorem fractionsFollowTheInputs : Obligations.FractionsFollowTheInputs := by
  intro s
  simp only [← awardedTotal_eq_sum_filter]
  refine ⟨fun lost => ?noSample, fun d held within => ?within, fun d held beyond => ?beyond,
    formFigures_awardedU s, formFigures_awardedD s, formFigures_aU s, formFigures_aD s,
    formFigures_excessU s, formFigures_excessD s, formFigures_fraction_bounds s, formFigures_method s⟩
  case noSample => rw [formFigures_aF, lost, fractionFsr_of_noSample]
  case within => rw [formFigures_aF, held, fractionFsr_within_deadband within]
  case beyond => rw [formFigures_aF, held, fractionFsr_beyond_deadband beyond]

end Sys2Proof.Machine

/-! PROOF. TAKE: the oldest delivery record leaves the queue, and the fields it is answered with (R152; 11,
Read-out forms). -/

namespace Sys2Proof.Machine

/-! ### The delivery record on the wire -/

theorem deliveryForm_length (r : DeliveryRecord) : (deliveryForm r).length = 32 := by
  simp [deliveryForm, putFlags]

/-- A flags byte of three bits weighs bit n with 2 to the n. -/
theorem flagBits_three (a b c : Bool) :
    flagBits [a, b, c] = (if a then 1 else 0) + 2 * (if b then 1 else 0) + 4 * (if c then 1 else 0) := by
  simp only [flagBits]
  omega

/-- The form's fields in their order, each with its width. -/
theorem deliveryForm_eq_flatMap (r : DeliveryRecord) :
    deliveryForm r =
      [(2, r.entry), (4, r.ref), (1, productCode r.product), (4, r.slot), (2, r.awarded), (4, r.requestedUp),
        (4, r.requestedDown), (4, r.deliveredUp), (4, r.deliveredDown), (2, r.shortfallRounds),
        (1, flagBits [r.released, r.override, r.gapBefore])].flatMap fun p => putU p.1 p.2 := by
  simp [deliveryForm, putFlags]

/-! ### The Delivery Tracker's answer -/

theorem takeTake_of_empty {s : State} (empty : s.track.queue = []) (l : Link) (c : List Byte) :
    takeTake l c s = (s, refuse .empty) := by
  simp [takeTake, empty]

theorem takeTake_of_cons {s : State} {r : DeliveryRecord} {rest : List DeliveryRecord}
    (queued : s.track.queue = r :: rest) (l : Link) (c : List Byte) :
    takeTake l c s =
      ({ s with track := { s.track with queue := rest } }, done (deliveryForm r ++ putU 2 rest.length)) := by
  simp [takeTake, queued]

/-! ### The request taken -/

/-- TAKE on TL ends with the answer that the Delivery Tracker gives it. -/
theorem exec_take_answered {c : List Byte} {s t : State} {code : AnswerCode} {result : List Byte}
    (h : CanTake s .tl) (hc : c.length = 0)
    (taken : takeTake .tl c (frameComplete .tl s) = (t, .answer code result)) (tag : Byte) :
    exec (.take .tl tag c) s = .next (settle (answered .take .tl tag code result t)) :=
  receiveRequest_answered h (frameRefusal_master s (.inl rfl) rfl hc rfl) taken tag

/-- Settles O42: by the two answers of the Delivery Tracker, whose queue the end of the frame's reception
leaves as it is, and by the fields of the form. -/
theorem takeRemovesTheOldestRecord : Obligations.TakeRemovesTheOldestRecord := by
  refine ⟨fun tag c s h hc => ⟨fun empty => ?empty, fun r rest queued => ?taken⟩,
    fun r => ⟨deliveryForm_length r, ?fields⟩⟩
  case empty =>
    have noRecord : (frameComplete .tl s).track.queue = [] := by simp [empty]
    exact exec_take_answered h hc (takeTake_of_empty noRecord ..) tag
  case taken =>
    have oldest : (frameComplete .tl s).track.queue = r :: rest := by simp [queued]
    have taken := takeTake_of_cons oldest .tl c
    rw [frameComplete_track] at taken
    exact exec_take_answered h hc taken tag
  case fields =>
    rw [deliveryForm_eq_flatMap, flagBits_three]
    cases r.product <;> rfl

end Sys2Proof.Machine

/-! PROOF. MAP: the marks that the new limit and the span leave in a map, and the Link Interface's checks in
their order (R171, R173). -/

namespace Sys2Proof.Machine

/-! ### The marks of a written map -/

theorem getLsbD_marksBelow (n i : Nat) :
    (marksBelow n).getLsbD i = (decide (i < 4096) && decide (i < n)) := by
  rw [marksBelow, BitVec.getLsbD_ofNat, Nat.testBit_two_pow_sub_one]

theorem getLsbD_marksOfSpan (first count i : Nat) :
    (marksOfSpan first count).getLsbD i = decide (i < 4096 ∧ first ≤ i ∧ i < first + count) := by
  rw [marksOfSpan, BitVec.getLsbD_shiftLeft, getLsbD_marksBelow, Bool.eq_iff_iff]
  simp only [Bool.and_eq_true, Bool.not_eq_true', decide_eq_true_eq, decide_eq_false_iff_not]
  omega

/-- A new limit drops the marks at and above it (R171). -/
theorem getLsbD_withLimit (m : UnitMap) (limit i : Nat) :
    (withLimit m limit).marks.getLsbD i = (decide (i < limit) && m.marks.getLsbD i) := by
  rw [withLimit, BitVec.getLsbD_and, getLsbD_marksBelow]
  by_cases hi : i < 4096
  · simp [hi, Bool.and_comm]
  · simp [BitVec.getLsbD_of_ge m.marks i (not_lt.mp hi)]

/-- A mark in the span takes the mark value, and a mark outside it stays (R173). -/
theorem getLsbD_withSpan_eq_ite (m : UnitMap) (first count : Nat) (v : Bool) (i : Nat) :
    (withSpan m first count v).marks.getLsbD i =
      if (marksOfSpan first count).getLsbD i = true then v else m.marks.getLsbD i := by
  cases v
  case true =>
    simp only [withSpan, if_true, BitVec.getLsbD_or]
    cases (marksOfSpan first count).getLsbD i <;> simp
  case false =>
    simp only [withSpan, Bool.false_eq_true, if_false, BitVec.getLsbD_and, BitVec.getLsbD_not]
    by_cases hi : i < 4096
    · cases (marksOfSpan first count).getLsbD i <;> simp [hi]
    · simp [BitVec.getLsbD_of_ge _ i (not_lt.mp hi)]

/-- A span within the unit indices gives every index in it the mark value. -/
theorem getLsbD_withSpan {first count : Nat} (fits : 0 < count → first + count ≤ 4096) (m : UnitMap) (v : Bool)
    (i : Nat) :
    (withSpan m first count v).marks.getLsbD i =
      if first ≤ i ∧ i < first + count then v else m.marks.getLsbD i := by
  have inMap : i < 4096 ∧ first ≤ i ∧ i < first + count ↔ first ≤ i ∧ i < first + count := by omega
  simp only [getLsbD_withSpan_eq_ite, getLsbD_marksOfSpan, inMap, decide_eq_true_eq]

/-! ### The Link Interface's answer -/

/-- The map that an accepted MAP writes over the selected one, read from the request's contents (R173). -/
def mapWritten (c : List Byte) (m : UnitMap) : UnitMap :=
  withSpan (withLimit m (readU c 2 2)) (readU c 4 2) (readU c 6 2) (readBit c 1 1)

@[simp] theorem mapWritten_limit (c : List Byte) (m : UnitMap) : (mapWritten c m).limit = readU c 2 2 := rfl

theorem getLsbD_mapWritten {c : List Byte}
    (inRange : ¬(4096 < readU c 2 2 ∨ (0 < readU c 6 2 ∧ readU c 2 2 < readU c 4 2 + readU c 6 2)))
    (m : UnitMap) (i : Nat) :
    (mapWritten c m).marks.getLsbD i =
      if readU c 4 2 ≤ i ∧ i < readU c 4 2 + readU c 6 2 then readBit c 1 1
      else (decide (i < readU c 2 2) && m.marks.getLsbD i) := by
  rw [mapWritten, getLsbD_withSpan (by omega), getLsbD_withLimit]

theorem spanPermitted_iff (m : UnitMap) (first count : Nat) :
    spanPermitted m first count = true ↔ ∃ k < count, permitted m (first + k) = true := by
  simp [spanPermitted]

theorem fleetMap_eq {s : State} {l : Link} {m : UnitMap} (hm : mapOf s l = some m) : fleetMap s l = m := by
  simp [fleetMap, hm]

theorem mapSelected_of_query {c : List Byte} {s : State} {l : Link} {m : UnitMap} (hm : mapOf s l = some m)
    (query : readBit c 1 0 = true) : mapSelected l c s = (s, done (mapForm m)) := by
  simp [mapSelected, query, fleetMap_eq hm]

theorem mapSelected_of_badRange {c : List Byte} (write : readBit c 1 0 = false)
    (bad : 4096 < readU c 2 2 ∨ (0 < readU c 6 2 ∧ readU c 2 2 < readU c 4 2 + readU c 6 2))
    (l : Link) (s : State) : mapSelected l c s = (s, refuse .badRange) := by
  by_cases above : 4096 < readU c 2 2
  · simp [mapSelected, write, Config.units, above]
  · simp [mapSelected, write, Config.units, above, bad.resolve_left above]

/-- With the limit and the span in range, the other fleet link's map decides (R173 step 3). -/
theorem mapSelected_of_inRange {c : List Byte} {s : State} {l : Link} {m o : UnitMap} (hm : mapOf s l = some m)
    (ho : mapOf s (otherFleet l) = some o) (write : readBit c 1 0 = false)
    (inRange : ¬(4096 < readU c 2 2 ∨ (0 < readU c 6 2 ∧ readU c 2 2 < readU c 4 2 + readU c 6 2))) :
    mapSelected l c s =
      if readBit c 1 1 = true ∧ ∃ k < readU c 6 2, permitted o (readU c 4 2 + k) = true then
        (s, refuse .overlap)
      else (setMap l (mapWritten c m) s, done (mapForm (mapWritten c m))) := by
  obtain ⟨limitFits, spanFits⟩ := not_or.mp inRange
  simp only [mapSelected, write, Config.units, limitFits, spanFits, fleetMap_eq hm, fleetMap_eq ho,
    spanPermitted_iff, Bool.false_eq_true, if_false, mapWritten]

/-! ### The request taken -/

/-- MAP on TL ends with the answer that the Link Interface gives it. -/
theorem exec_map_answered {c : List Byte} {s t : State} {code : AnswerCode} {result : List Byte}
    (h : CanTake s .tl) (hc : c.length = 8)
    (taken : takeMap .tl c (frameComplete .tl s) = (t, .answer code result)) (tag : Byte) :
    exec (.map .tl tag c) s = .next (settle (answered .map .tl tag code result t)) :=
  receiveRequest_answered h (frameRefusal_master s (.inl rfl) rfl hc rfl) taken tag

theorem takeMap_of_unknown {c : List Byte} (unknown : selectorOf (readU c 0 1) = none) (l : Link) (s : State) :
    takeMap l c s = (s, refuse .badRequest) := by
  simp [takeMap, unknown]

theorem takeMap_of_known {c : List Byte} {l : Link} (known : selectorOf (readU c 0 1) = some l) (k : Link)
    (s : State) : takeMap k c s = mapSelected l c s := by
  simp [takeMap, known]

/-- The end of a frame's reception leaves the unit maps as they are. -/
@[simp] theorem mapOf_frameComplete (l k : Link) (s : State) : mapOf (frameComplete l s) k = mapOf s k :=
  mapOf_setLink ..

/-- Settles O47: by the refusal of an unknown selector and the four answers for a selected map, with the new
marks read off the written map. -/
theorem mapWritesOneMap : Obligations.MapWritesOneMap := by
  intro tag c s h hc
  refine ⟨fun unknown => exec_map_answered h hc (takeMap_of_unknown unknown ..) tag, fun l m o known hm ho => ?_⟩
  have selected : mapOf (frameComplete .tl s) l = some m := (mapOf_frameComplete ..).trans hm
  have other : mapOf (frameComplete .tl s) (otherFleet l) = some o := (mapOf_frameComplete ..).trans ho
  have answer {t : State} {code : AnswerCode} {result : List Byte}
      (chosen : mapSelected l c (frameComplete .tl s) = (t, .answer code result)) :
      exec (.map .tl tag c) s = .next (settle (answered .map .tl tag code result t)) :=
    exec_map_answered h hc ((takeMap_of_known known ..).trans chosen) tag
  refine ⟨fun query => ?query, fun write bad => ?badRange, fun write inRange overlap => ?overlap,
    fun write inRange free => ?written⟩
  case query => exact answer (mapSelected_of_query selected query)
  case badRange => exact answer (mapSelected_of_badRange write bad ..)
  case overlap => exact answer ((mapSelected_of_inRange selected other write inRange).trans (if_pos overlap))
  case written =>
    exact ⟨mapWritten c m, answer ((mapSelected_of_inRange selected other write inRange).trans (if_neg free)),
      mapWritten_limit c m, getLsbD_mapWritten inRange m⟩

end Sys2Proof.Machine

/-! PROOF. What the events on the fleet channels can change: the relation `Inner` holds between the states before
and after every operation that reports, faults, rounds, catalogues and settings are made of, so that the
invariants and the frame of each are proved once (02, 03, 08). -/

namespace Sys2Proof.Machine

/-! ### The relation -/

/-- A unit record keeps its owner's limits, and owes the event of an exclusion only while excluded. -/
def UnitFits (u : UnitRec) : Prop := LimitsHold u ∧ (u.owesEvent = true → u.excluded = true)

/-- What the operations on channels, units and rounds leave as it is or keep in order. -/
structure Inner (s t : State) : Prop where
  time : t.time = s.time
  book : t.book = s.book
  shares : t.shares = s.shares
  queue : t.queue = s.queue
  resetHeld : t.resetHeld = s.resetHeld
  freeTick : t.freeTick = s.freeTick
  pending : t.pending = s.pending
  links : NoticesOnly s t
  marks : MarksOnly s t
  rising : s.eval.replans.Pairwise (· < ·) → t.eval.replans.Pairwise (· < ·)
  fleet : { t.fleet with units := s.fleet.units } = s.fleet
  units : Listed UnitRec.reset s.fleet.units → Listed UnitRec.reset t.fleet.units
  owners : OwnerLimits s → OwnerLimits t
  period : t.ctl.period = s.ctl.period
  replyTimeout : t.ctl.replyTimeout = s.ctl.replyTimeout
  exchangeTimer : t.ctl.exchangeTimer = s.ctl.exchangeTimer
  overrun : t.ctl.overrun = s.ctl.overrun
  channels : Listed ChannelRec.reset s.ctl.channels → Listed ChannelRec.reset t.ctl.channels
  disp : { t.disp with figures := s.disp.figures } = s.disp
  current : Ascending s.track.current → Ascending t.track.current
  held : Ascending s.track.held → Ascending t.track.held
  records : s.track.queue.length ≤ 256 → t.track.queue.length ≤ 256
  marginSettings : { t.margin with
    up := s.margin.up, down := s.margin.down, overall := s.margin.overall, asserted := s.margin.asserted } =
      s.margin
  margin : MarginConsistent s → MarginConsistent t

theorem MarksOnly.trans {s t u : State} (h : MarksOnly s t) (g : MarksOnly t u) : MarksOnly s u := by
  obtain ⟨evalT, jobT⟩ := h
  obtain ⟨evalU, jobU⟩ := g
  exact ⟨by rw [evalU, evalT], jobU.trans jobT⟩

namespace Inner

theorem refl (s : State) : Inner s s :=
  ⟨rfl, rfl, rfl, rfl, rfl, rfl, rfl, .refl _, ⟨rfl, rfl⟩, id, rfl, id, id, rfl, rfl, rfl, rfl, id, rfl, id, id, id, rfl, id⟩

theorem trans {s t u : State} (h : Inner s t) (g : Inner t u) : Inner s u where
  time := g.time.trans h.time
  book := g.book.trans h.book
  shares := g.shares.trans h.shares
  queue := g.queue.trans h.queue
  resetHeld := g.resetHeld.trans h.resetHeld
  freeTick := g.freeTick.trans h.freeTick
  pending := g.pending.trans h.pending
  links := h.links.trans g.links
  marks := h.marks.trans g.marks
  rising := g.rising ∘ h.rising
  fleet := (congrArg (fun f : UnitTable => { f with units := s.fleet.units }) g.fleet).trans h.fleet
  units := g.units ∘ h.units
  owners := g.owners ∘ h.owners
  period := g.period.trans h.period
  replyTimeout := g.replyTimeout.trans h.replyTimeout
  exchangeTimer := g.exchangeTimer.trans h.exchangeTimer
  overrun := g.overrun.trans h.overrun
  channels := g.channels ∘ h.channels
  disp := (congrArg (fun d : Dispatcher => { d with figures := s.disp.figures }) g.disp).trans h.disp
  current := g.current ∘ h.current
  held := g.held ∘ h.held
  records := g.records ∘ h.records
  marginSettings := (congrArg (fun m : MarginMonitor => { m with
    up := s.margin.up, down := s.margin.down, overall := s.margin.overall, asserted := s.margin.asserted })
      g.marginSettings).trans h.marginSettings
  margin := g.margin ∘ h.margin

theorem feeders {s t : State} (h : Inner s t) : t.fleet.feeders = s.fleet.feeders :=
  (congrArg UnitTable.feeders h.fleet :)

theorem lostLimit {s t : State} (h : Inner s t) : t.fleet.lostLimit = s.fleet.lostLimit :=
  (congrArg UnitTable.lostLimit h.fleet :)

theorem deadband {s t : State} (h : Inner s t) : t.disp.deadband = s.disp.deadband :=
  (congrArg Dispatcher.deadband h.disp :)

theorem warn {s t : State} (h : Inner s t) : t.margin.warn = s.margin.warn :=
  (congrArg MarginMonitor.warn h.marginSettings :)

theorem short {s t : State} (h : Inner s t) : t.margin.short = s.margin.short :=
  (congrArg MarginMonitor.short h.marginSettings :)

theorem hysteresis {s t : State} (h : Inner s t) : t.margin.hysteresis = s.margin.hysteresis :=
  (congrArg MarginMonitor.hysteresis h.marginSettings :)

theorem lock {s t : State} (h : Inner s t) : t.margin.lock = s.margin.lock :=
  (congrArg MarginMonitor.lock h.marginSettings :)

theorem ite {c : Prop} [Decidable c] {s t u : State} (h : c → Inner s t) (g : ¬c → Inner s u) :
    Inner s (if c then t else u) := by
  split_ifs with hc
  · exact h hc
  · exact g hc

theorem foldl {α : Type} {f : State → α → State} (h : ∀ s a, Inner s (f s a)) (l : List α) (s : State) :
    Inner s (l.foldl f s) := by
  induction l generalizing s with
  | nil => exact refl s
  | cons a l ih => exact (h s a).trans (ih (f s a))

end Inner

/-! ### Notices, flags and marks -/

theorem inner_setLinks {ls : Links} {s : State} (h : NoticesOnly s { s with links := ls }) :
    Inner s { s with links := ls } :=
  { Inner.refl s with links := h }

theorem raiseOn_eq_setLinks (l : Link) (k : NoticeKind) (s : State) :
    raiseOn l k s = { s with links := (raiseOn l k s).links } := by
  cases l <;> rfl

theorem inner_raiseOn (l : Link) (k : NoticeKind) (s : State) : Inner s (raiseOn l k s) := by
  have notices := noticesOnly_raiseOn l k s
  rw [raiseOn_eq_setLinks] at notices ⊢
  exact inner_setLinks notices

theorem inner_raiseTlGl (k : NoticeKind) (s : State) : Inner s (raiseTlGl k s) :=
  (inner_raiseOn ..).trans (inner_raiseOn ..)

theorem inner_raiseOverride (s : State) : Inner s (raiseOverride s) :=
  (inner_raiseTlGl ..).trans ((inner_raiseOn ..).trans (inner_raiseOn ..))

theorem inner_raiseChannel (c : Nat) (s : State) : Inner s (raiseChannel c s) := by
  have onLink (touched : Bool) (l : Link) (t : State) : Inner t (if touched then raiseOn l .channel t else t) :=
    .ite (fun _ => inner_raiseOn ..) fun _ => .refl t
  dsimp only [raiseChannel]
  exact .trans (inner_raiseOn .tl .channel s) (.trans (onLink _ .fa _) (onLink _ .fb _))

theorem inner_markEntries (es : List Nat) (s : State) : Inner s (markEntries es s) :=
  { Inner.refl s with marks := ⟨rfl, rfl⟩, rising := fun h => rising_markEntries h es }

theorem inner_markOnUnits (p : Nat → Bool) (s : State) : Inner s (markOnUnits p s) := inner_markEntries ..

theorem marksOnly_disturb (p : Nat → Bool) (s : State) : MarksOnly s (disturb p s) := by
  rw [disturb_eq]
  exact ⟨rfl, by simp [Function.comp_def]⟩

theorem inner_disturb (p : Nat → Bool) (s : State) : Inner s (disturb p s) := by
  have marks := marksOnly_disturb p s
  rw [disturb_eq] at marks ⊢
  exact { Inner.refl s with marks := marks }

theorem inner_contributionLost (i : Nat) (s : State) : Inner s (contributionLost i s) :=
  (inner_markOnUnits ..).trans (inner_disturb ..)

theorem inner_contributionGained (s : State) : Inner s (contributionGained s) := inner_markEntries ..

/-! ### Writes of one record -/

theorem unitFits_reset : UnitFits UnitRec.reset := by simp [UnitFits, LimitsHold, UnitRec.reset]

theorem ownerLimits_iff_mem (s : State) : OwnerLimits s ↔ ∀ p ∈ s.fleet.units, UnitFits p.2 := .rfl

theorem unitFits_unitOf {s : State} (h : OwnerLimits s) (i : Nat) : UnitFits (unitOf s i) := by
  unfold unitOf tableGet
  cases hf : tableFind s.fleet.units i with
  | none => exact unitFits_reset
  | some u => exact h (i, u) (tableFind_mem hf)

theorem mem_tableSet {α : Type} [DecidableEq α] {d v : α} {t : List (Nat × α)} {i : Nat} {p : Nat × α}
    (h : p ∈ tableSet d t i v) : p = (i, v) ∨ p ∈ t := by
  unfold tableSet at h
  split_ifs at h
  · exact .inr (mem_tableErase h)
  · exact mem_tableInsert h

theorem mem_tableMap {α : Type} [DecidableEq α] {d : α} {f : Nat → α → α} {t : List (Nat × α)} {p : Nat × α}
    (h : p ∈ tableMap d f t) : ∃ v, (p.1, v) ∈ t ∧ p.2 = f p.1 v := by
  obtain ⟨q, hq, e⟩ := List.mem_filterMap.1 h
  split_ifs at e
  obtain rfl := Option.some.inj e
  exact ⟨q.2, hq, rfl⟩

theorem inner_setUnit {i : Nat} {u : UnitRec} {s : State} (h : UnitFits (unitOf s i) → UnitFits u) :
    Inner s (setUnit i u s) :=
  { Inner.refl s with
    units := fun l => listed_tableSet l i u
    owners := fun o p hp => by
      rcases mem_tableSet hp with rfl | hp
      · exact h (unitFits_unitOf o i)
      · exact o p hp }

/-- A rewriting of every unit record that keeps each owner's limits. -/
theorem inner_mapUnits {f : Nat → UnitRec → UnitRec} (h : ∀ i u, UnitFits u → UnitFits (f i u)) (s : State) :
    Inner s { s with fleet := { s.fleet with units := tableMap UnitRec.reset f s.fleet.units } } :=
  { Inner.refl s with
    units := fun l => listed_tableMap f l.1
    owners := fun o p hp => by
      obtain ⟨v, hv, e⟩ := mem_tableMap hp
      exact (congrArg UnitFits e).mpr (h _ v (o _ hv)) }

theorem inner_setChannel (c : Nat) (r : ChannelRec) (s : State) : Inner s (setChannel c r s) :=
  { Inner.refl s with channels := fun l => listed_tableSet l c r }

theorem inner_setSticky (c : Nat) (f : FaultSet) (s : State) : Inner s (setSticky c f s) :=
  .ite (fun _ => .refl s) fun _ => (inner_setChannel ..).trans (inner_raiseChannel ..)

/-! ### Delivery records and accumulators -/

theorem length_appendRecord_le (r : DeliveryRecord) (s : State) (h : s.track.queue.length ≤ 256) :
    (appendRecord r s).track.queue.length ≤ 256 := by
  have queue : (appendRecord r s).track.queue =
      if 256 ≤ s.track.queue.length then s.track.queue.drop 1 ++ [{ r with gapBefore := true }]
      else s.track.queue ++ [r] := by
    dsimp only [appendRecord, Config.deliveryQueue]
    by_cases empty : s.track.queue = [] <;> simp [empty]
  rw [queue]
  split_ifs
  · simp only [List.length_append, List.length_drop, List.length_singleton]
    omega
  · simp only [List.length_append, List.length_singleton]
    omega

theorem inner_appendRecord (r : DeliveryRecord) (s : State) : Inner s (appendRecord r s) := by
  have records := length_appendRecord_le r s
  dsimp only [appendRecord] at records ⊢
  by_cases empty : s.track.queue = []
  · rw [if_pos empty] at records ⊢
    refine .trans ?_ (inner_raiseOn ..)
    exact { Inner.refl s with records := by simpa using records }
  · rw [if_neg empty] at records ⊢
    exact { Inner.refl s with records := records }

theorem inner_emitRecord (n : Nat) (a : Accumulator) (b : Bool) (s : State) : Inner s (emitRecord n a b s) := by
  unfold emitRecord
  cases entryOf s n with
  | none => exact .refl s
  | some e => exact inner_appendRecord ..

theorem inner_reportUnit (i : Nat) (s : State) : Inner s (reportUnit i s) := { Inner.refl s with }

theorem inner_formRoll (s : State) : Inner s (formRoll s) := { Inner.refl s with }

/-- The accounts of a tracker keep their numbers rising, and its queue, its roll and the units that reported stay as
they are. -/
def AccountsKept (k m : Tracker) : Prop :=
  (m.queue = k.queue ∧ m.roll = k.roll ∧ m.reported = k.reported) ∧
    (Ascending k.current → Ascending m.current) ∧ (Ascending k.held → Ascending m.held)

theorem AccountsKept.refl (k : Tracker) : AccountsKept k k := ⟨⟨rfl, rfl, rfl⟩, id, id⟩

theorem AccountsKept.trans {k m n : Tracker} (h : AccountsKept k m) (g : AccountsKept m n) : AccountsKept k n := by
  obtain ⟨⟨queueM, rollM, reportedM⟩, currentM, heldM⟩ := h
  obtain ⟨⟨queueN, rollN, reportedN⟩, currentN, heldN⟩ := g
  exact ⟨⟨queueN.trans queueM, rollN.trans rollM, reportedN.trans reportedM⟩, currentN ∘ currentM, heldN ∘ heldM⟩

theorem AccountsKept.foldl {α : Type} {f : Tracker → α → Tracker} (h : ∀ k a, AccountsKept k (f k a)) (l : List α)
    (k : Tracker) : AccountsKept k (l.foldl f k) := by
  induction l generalizing k with
  | nil => exact refl k
  | cons a l ih => exact (h k a).trans (ih (f k a))

/-- A credit goes to the held account of the round's slot, else to the current one of that slot, else nowhere
(R148). -/
theorem creditAccumulator_cases (slot n : Nat) (f : Accumulator → Accumulator) (k : Tracker) :
    (∃ a, tableFind k.held n = some a ∧ a.slot = slot ∧
        creditAccumulator slot n f k = { k with held := tableInsert k.held n (f a) }) ∨
      ((∀ a, tableFind k.held n = some a → a.slot ≠ slot) ∧
        ((∃ a, tableFind k.current n = some a ∧ a.slot = slot ∧
            creditAccumulator slot n f k = { k with current := tableInsert k.current n (f a) }) ∨
          ((∀ a, tableFind k.current n = some a → a.slot ≠ slot) ∧ creditAccumulator slot n f k = k))) := by
  unfold creditAccumulator
  cases held : tableFind k.held n with
  | none => cases current : tableFind k.current n <;> simp_all; grind
  | some a =>
    by_cases ha : a.slot = slot
    · exact .inl ⟨a, rfl, ha, by simp [ha]⟩
    · cases current : tableFind k.current n <;> simp_all; grind

theorem accountsKept_creditAccumulator (slot n : Nat) (f : Accumulator → Accumulator) (k : Tracker) :
    AccountsKept k (creditAccumulator slot n f k) := by
  rcases creditAccumulator_cases slot n f k with ⟨a, _, _, e⟩ | ⟨_, ⟨a, _, _, e⟩ | ⟨_, e⟩⟩ <;> rw [e]
  · exact ⟨⟨rfl, rfl, rfl⟩, id, fun h => ascending_tableInsert h ..⟩
  · exact ⟨⟨rfl, rfl, rfl⟩, fun h => ascending_tableInsert h .., id⟩
  · exact .refl k

theorem accountsKept_creditRequested (roll : Roll) (f : RoundFigures) (k : Tracker) :
    AccountsKept k (creditRequested roll f k) :=
  .foldl (fun _ _ => accountsKept_creditAccumulator ..) ..

theorem accountsKept_creditDelivered (s : State) (roll : Roll) (f : RoundFigures) (k : Tracker) :
    AccountsKept k (creditDelivered s roll f k) := by
  unfold creditDelivered
  split_ifs
  · exact .foldl (fun _ _ => accountsKept_creditAccumulator ..) ..
  · exact .refl k

theorem accountsKept_creditShortfall (roll : Roll) (f : RoundFigures) (k : Tracker) :
    AccountsKept k (creditShortfall roll f k) := by
  unfold creditShortfall
  split_ifs
  · exact .refl k
  · exact .foldl (fun _ _ => accountsKept_creditAccumulator ..) ..

theorem accountsKept_creditOverride (roll : Roll) (f : RoundFigures) (k : Tracker) :
    AccountsKept k (creditOverride roll f k) := by
  unfold creditOverride
  split_ifs
  · exact .foldl (fun _ _ => accountsKept_creditAccumulator ..) ..
  · exact .refl k

theorem inner_setTrack {k : Tracker} {s : State} (h : AccountsKept s.track k) : Inner s { s with track := k } := by
  obtain ⟨⟨queue, _, _⟩, current, held⟩ := h
  exact { Inner.refl s with records := fun bound => (congrArg List.length queue).le.trans bound, current := current, held := held }

/-- The credits of a completed round, where it has a roll and figures (R146 to R148). -/
def creditRound (s : State) : State :=
  match s.track.roll, s.disp.figures with
  | some roll, some f =>
    { s with track := creditOverride roll f (creditShortfall roll f
        (creditDelivered s roll f (creditRequested roll f s.track))) }
  | _, _ => s

theorem trackCompletion_eq (s : State) :
    trackCompletion s = emitHeld { creditRound s with track := { (creditRound s).track with roll := none } } := rfl

theorem accountsKept_credits (s : State) (roll : Roll) (f : RoundFigures) (k : Tracker) :
    AccountsKept k (creditOverride roll f (creditShortfall roll f
      (creditDelivered s roll f (creditRequested roll f k)))) :=
  (accountsKept_creditRequested ..).trans ((accountsKept_creditDelivered ..).trans
    ((accountsKept_creditShortfall ..).trans (accountsKept_creditOverride ..)))

theorem inner_creditRound (s : State) : Inner s (creditRound s) := by
  unfold creditRound
  cases s.track.roll with
  | none => exact .refl s
  | some roll =>
    cases s.disp.figures with
    | none => exact .refl s
    | some f =>
      exact inner_setTrack (accountsKept_credits ..)

theorem inner_emitHeld (s : State) : Inner s (emitHeld s) :=
  .trans (t := { s with track := { s.track with held := [] } })
    { Inner.refl s with held := fun _ => by simp [Ascending] } (.foldl (fun _ _ => inner_emitRecord ..) ..)

theorem inner_trackCompletion (s : State) : Inner s (trackCompletion s) := by
  rw [trackCompletion_eq]
  refine (inner_creditRound s).trans (.trans ?_ (inner_emitHeld ..))
  exact { Inner.refl _ with }

/-! ### The margin -/

theorem marginRatio_le (deliverable obligation : Nat) : marginRatio deliverable obligation ≤ 9999 := by
  unfold marginRatio
  split_ifs <;> omega

/-- A completion's figures keep the ratios in range, the overall state the worse, and the line of LEVEL mode
with it (R154 to R156). -/
theorem marginConsistent_computeMargin {s : State} (h : MarginConsistent s) :
    MarginConsistent { s with margin := computeMargin s } := by
  obtain ⟨-, -, -, line⟩ := h
  refine ⟨marginRatio_le .., marginRatio_le .., rfl, fun level => ?_⟩
  have level : s.margin.mode = .level := level
  simp only [computeMargin, lineAfter, level]
  split_ifs with same
  · rw [line level, same]
  · rfl

theorem inner_marginCompletion (s : State) : Inner s (marginCompletion s) :=
  have stored : Inner s { s with margin := computeMargin s } := { Inner.refl s with margin := marginConsistent_computeMargin }
  .ite (fun _ => stored) fun _ => stored.trans (inner_raiseTlGl ..)

/-! ### Unit records -/

theorem LimitsHold.ofLimits {u v : UnitRec} (h : LimitsHold u) (floor : v.floor = u.floor)
    (ceiling : v.ceiling = u.ceiling) : LimitsHold v := by
  unfold LimitsHold at *
  rwa [floor, ceiling]

theorem unitFits_of_defaults {u : UnitRec} (floor : u.floor = 200) (ceiling : u.ceiling = 950)
    (owes : u.owesEvent = false) : UnitFits u := by
  simp [UnitFits, LimitsHold, floor, ceiling, owes]

theorem inner_acceptCatalogue (i : Nat) (cat : List Descriptor) (s : State) : Inner s (acceptCatalogue i cat s) :=
  inner_setUnit fun _ => unitFits_of_defaults rfl rfl rfl

theorem inner_rejectCatalogue (i : Nat) (reason : RejectReason) (s : State) :
    Inner s (rejectCatalogue i reason s) :=
  inner_setUnit id

theorem inner_takeCatalogue (i : Nat) (cat : List Descriptor) (s : State) : Inner s (takeCatalogue i cat s) := by
  unfold takeCatalogue
  cases catalogueFault cat with
  | none => exact inner_acceptCatalogue ..
  | some reason => exact inner_rejectCatalogue ..

theorem unitFits_owesLess {u : UnitRec} (h : UnitFits u) {v : UnitRec} (floor : v.floor = u.floor)
    (ceiling : v.ceiling = u.ceiling) (excluded : v.excluded = u.excluded)
    (owes : v.owesEvent = true → u.owesEvent = true) : UnitFits v :=
  ⟨h.1.ofLimits floor ceiling, fun o => excluded.trans (h.2 (owes o))⟩

theorem inner_goodReport (i bits : Nat) (s : State) : Inner s (goodReport i bits s) := by
  dsimp only [goodReport]
  cases (unitOf s i).state with
  | probing =>
    have event (gained lost : Prop) [Decidable gained] [Decidable lost] (t : State) :
        Inner t (if gained then contributionGained t else if lost then contributionLost i t else t) :=
      .ite (fun _ => inner_contributionGained _) fun _ => .ite (fun _ => inner_contributionLost ..) fun _ => .refl _
    refine .ite (fun _ => inner_setUnit id) fun _ => .trans (inner_setUnit fun h => ?fits) (event _ _ _)
    exact unitFits_owesLess h rfl rfl rfl fun o => (Bool.and_eq_true_iff.1 o).1
  | ready => exact inner_setUnit id
  | lost => exact inner_setUnit id
  | empty => exact .refl s
  | rejected _ => exact .refl s

theorem inner_missingReport (i : Nat) (s : State) : Inner s (missingReport i s) := by
  dsimp only [missingReport]
  cases (unitOf s i).state with
  | probing => exact inner_setUnit id
  | ready =>
    have event (lost : Prop) [Decidable lost] (t : State) : Inner t (if lost then contributionLost i t else t) :=
      .ite (fun _ => inner_contributionLost ..) fun _ => .refl _
    refine .ite (fun _ => .trans (inner_setUnit ?fits) (event _ _)) fun _ => inner_setUnit id
    exact id
  | lost => exact .refl s
  | empty => exact .refl s
  | rejected _ => exact .refl s

theorem inner_emptySpan (c : Nat) (s : State) : Inner s (emptySpan c s) :=
  inner_mapUnits (fun i u h => by
    split_ifs
    · exact unitFits_of_defaults rfl rfl rfl
    · exact h) s

theorem unitFits_settingApplied {running : Bool} {x : Setting} {u : UnitRec} (h : UnitFits u) :
    UnitFits (settingApplied running x u) := by
  obtain ⟨limits, owes⟩ := h
  unfold settingApplied
  split_ifs
  · exact ⟨limits, owes⟩
  · unfold LimitsHold at limits
    cases x with
    | floor v => exact ⟨by simp only [applyFloor, LimitsHold]; omega, owes⟩
    | ceiling v => exact ⟨by simp only [applyCeiling, LimitsHold]; omega, owes⟩
    | excluded b =>
      dsimp only [applyExcluded]
      split_ifs
      · exact ⟨limits, owes⟩
      · exact ⟨limits, fun o => by simp only [Bool.and_eq_true] at o; exact o.1⟩

theorem inner_applySetting (i : Nat) (x : Setting) (s : State) : Inner s (applySetting i x s) :=
  have applied := (inner_setUnit (s := s) (i := i) unitFits_settingApplied).trans (inner_disturb (fun k => k == i) _)
  .ite (fun _ => applied.trans (inner_contributionLost ..)) fun _ =>
    .ite (fun _ => applied.trans (inner_contributionGained _)) fun _ => applied

theorem inner_raiseOwed (p : Nat → Bool) (s : State) : Inner s (raiseOwed p s) :=
  .trans (inner_mapUnits (fun i u h => by
    split_ifs
    · exact ⟨h.1, fun o => absurd o (by simp)⟩
    · exact h) s) (.foldl (fun _ _ => inner_contributionLost ..) ..)

end Sys2Proof.Machine

/-! PROOF. Every operation of the Fleet Channel Controller is made of operations that keep what `Inner` says: rounds,
faults, exchange answers, discovery, START, STOP, ENGAGE, DISENGAGE and HALT (03). -/

namespace Sys2Proof.Machine

/-! ### Rounds -/

theorem inner_completeRound (s : State) : Inner s (completeRound s) := by
  unfold completeRound
  cases s.ctl.round with
  | none => exact .refl s
  | some r => exact .trans (by exact { Inner.refl s with }) (.trans (inner_trackCompletion _) (inner_marginCompletion _))

theorem inner_completeIfDone (s : State) : Inner s (completeIfDone s) := by
  unfold completeIfDone
  cases s.ctl.round with
  | none => exact .refl s
  | some r => exact .ite (fun _ => inner_completeRound s) fun _ => .refl s

theorem inner_leaveOutstanding (c : Nat) (s : State) : Inner s (leaveOutstanding c s) := by
  unfold leaveOutstanding
  cases s.ctl.round with
  | none => exact .refl s
  | some r => exact .trans (by exact { Inner.refl s with }) (inner_completeIfDone _)

theorem inner_failOutstanding (c : Nat) (s : State) : Inner s (failOutstanding c s) := by
  unfold failOutstanding
  cases s.ctl.round with
  | none => exact .refl s
  | some r => exact .trans (by exact { Inner.refl s with }) (inner_leaveOutstanding ..)

theorem inner_leaveRound (c : Nat) (s : State) : Inner s (leaveRound c s) := by
  unfold leaveRound
  cases s.ctl.round with
  | none => exact .refl s
  | some r => exact .trans (by exact { Inner.refl s with }) (inner_leaveOutstanding ..)

theorem inner_exchangeDue (s : State) (c : Nat) : Inner s (exchangeDue s c) := inner_setChannel ..

theorem inner_beginRound (s : State) : Inner s (beginRound s) := by
  dsimp only [beginRound]
  refine .trans (t := { s with disp := { s.disp with figures := some (formFigures s) } }) { Inner.refl s with } ?_
  refine .trans (inner_formRoll _) (.trans ?_ (.trans (.foldl inner_exchangeDue ..) (inner_completeIfDone _)))
  exact { Inner.refl (formRoll _) with }

/-! ### Faults -/

theorem inner_faultChannel (c : Nat) (s : State) : Inner s (faultChannel c s) := by
  dsimp only [faultChannel]
  exact .trans (inner_setChannel ..) (.trans (inner_markOnUnits ..) (.trans (inner_disturb ..)
    (inner_raiseChannel ..)))

theorem inner_countFailure (c : Nat) (outcome : ReplyOutcome) (s : State) : Inner s (countFailure c outcome s) :=
  (inner_setSticky ..).trans (inner_setChannel ..)

theorem inner_faultAtThree (c : Nat) (s : State) : Inner s (faultAtThree c s) :=
  .ite (fun _ => (inner_setSticky ..).trans (inner_faultChannel ..)) fun _ => .refl s

/-! ### Exchange answers -/

theorem inner_dropReport (c : Nat) (s : State) (p : Nat × DropSection) : Inner s (dropReport c s p) :=
  .ite (fun _ => .ite (fun _ => (inner_goodReport ..).trans (inner_reportUnit ..)) fun _ => inner_missingReport ..)
    fun _ => .refl s

theorem inner_copyIndication (c : Nat) (b : Bool) (s : State) : Inner s (copyIndication c b s) :=
  .ite (fun _ => .refl s) fun _ => (inner_setChannel ..).trans (inner_raiseChannel ..)

theorem inner_goodExchange (c : Nat) (contents : List Byte) (s : State) : Inner s (goodExchange c contents s) := by
  dsimp only [goodExchange]
  exact .ite
    (fun _ => .trans (inner_copyIndication ..) (.trans (.foldl (inner_dropReport c) ..)
      (.trans (inner_leaveOutstanding ..) (.trans (inner_setSticky ..) (inner_faultChannel ..)))))
    fun _ => .trans (inner_copyIndication ..) (.trans (.foldl (inner_dropReport c) ..)
      (.trans (inner_setChannel ..) (inner_leaveOutstanding ..)))

theorem inner_failedExchange (c : Nat) (outcome : ReplyOutcome) (s : State) :
    Inner s (failedExchange c outcome s) := by
  dsimp only [failedExchange]
  refine .trans (inner_setSticky c (addFault (channelOf s c).sticky outcome) s) ?_
  exact .trans (.foldl (fun _ d => inner_missingReport (unitIndex c d) _) ..)
    ((inner_setChannel ..).trans ((inner_failOutstanding ..).trans (inner_faultAtThree ..)))

theorem inner_rearmOutcome (c : Nat) (outcome : ReplyOutcome) (s : State) : Inner s (rearmOutcome c outcome s) :=
  have counted := (inner_countFailure c outcome s).trans (inner_faultAtThree ..)
  .ite (fun _ => inner_setChannel ..) fun _ =>
    .ite (fun _ => counted.trans (inner_leaveOutstanding ..)) fun _ => counted

/-! ### Discovery -/

theorem inner_setDiscovery (c : Nat) (d : Discovery) (s : State) : Inner s (setDiscovery c d s) :=
  inner_setChannel ..

theorem inner_completeDiscovery (c : Nat) (s : State) : Inner s (completeDiscovery c s) :=
  (inner_setChannel ..).trans (inner_raiseChannel ..)

theorem inner_failedAttempt (c : Nat) (d : Discovery) (s : State) : Inner s (failedAttempt c d s) :=
  .ite (fun _ => inner_setDiscovery ..) fun _ => (inner_setSticky ..).trans (inner_faultChannel ..)

theorem inner_nextDrop (c : Nat) (d : Discovery) (s : State) : Inner s (nextDrop c d s) :=
  .ite (fun _ => inner_setDiscovery ..) fun _ => inner_completeDiscovery ..

theorem inner_takeRoster (c : Nat) (contents : List Byte) (s : State) : Inner s (takeRoster c contents s) :=
  .trans (inner_setChannel ..) (.ite (fun _ => inner_completeDiscovery ..) fun _ => inner_setDiscovery ..)

theorem inner_takePage (c : Nat) (d : Discovery) (contents : List Byte) (s : State) :
    Inner s (takePage c d contents s) :=
  .ite
    (fun _ => .ite (fun _ => inner_setDiscovery ..) fun _ => (inner_rejectCatalogue ..).trans (inner_nextDrop ..))
    fun _ => (inner_takeCatalogue ..).trans (inner_nextDrop ..)

theorem inner_failedPage (c : Nat) (d : Discovery) (s : State) : Inner s (failedPage c d s) :=
  .ite (fun _ => inner_setDiscovery ..) fun _ => (inner_rejectCatalogue ..).trans (inner_nextDrop ..)

theorem inner_discoveryOutcome (c : Nat) (outcome : ReplyOutcome) (contents : List Byte) (s : State) :
    Inner s (discoveryOutcome c outcome contents s) := by
  unfold discoveryOutcome
  cases (channelOf s c).discovery with
  | none => exact .refl s
  | some d =>
    dsimp only
    cases d.step with
    | arm => exact .ite (fun _ => inner_setDiscovery ..) fun _ => inner_failedAttempt ..
    | roster => exact .ite (fun _ => inner_takeRoster ..) fun _ => inner_failedAttempt ..
    | catalogue => exact .ite (fun _ => inner_takePage ..) fun _ => inner_failedPage ..

/-! ### Events on a channel's line -/

theorem inner_handOutcome (c : Nat) (owner : FrameOwner) (outcome : ReplyOutcome) (contents : List Byte)
    (s : State) : Inner s (handOutcome c owner outcome contents s) := by
  cases owner with
  | discovery => exact inner_discoveryOutcome ..
  | round => exact .ite (fun _ => inner_goodExchange ..) fun _ => inner_failedExchange ..
  | rearm => exact inner_rearmOutcome ..
  | nobody => exact .refl s

theorem inner_setLine (c : Nat) (line : ChannelLine) (s : State) : Inner s (setLine c line s) :=
  inner_setChannel ..

theorem inner_endChannelSending (c : Nat) (s : State) : Inner s (endChannelSending c s) := by
  unfold endChannelSending
  cases (channelOf s c).line with
  | free => exact .refl s
  | sending frame owner wire => exact .ite (fun _ => inner_setLine ..) fun _ => inner_setLine ..
  | awaiting frame owner wait => exact .refl s

theorem inner_takeAnswer (c : Nat) (chars : List RxChar) (s : State) : Inner s (takeAnswer c chars s) := by
  unfold takeAnswer
  cases (channelOf s c).line with
  | free => exact .refl s
  | sending frame owner wire => exact .refl s
  | awaiting frame owner wait => exact (inner_setLine ..).trans (inner_handOutcome ..)

theorem inner_takeReplyWait (c : Nat) (s : State) : Inner s (takeReplyWait c s) := by
  unfold takeReplyWait
  cases (channelOf s c).line with
  | free => exact .refl s
  | sending frame owner wire => exact .refl s
  | awaiting frame owner wait => exact (inner_setLine ..).trans (inner_handOutcome ..)

theorem inner_kickLine (s : State) (c : Nat) : Inner s (kickLine s c) := by
  rcases kickLine_cases s c with e | ⟨_, _, _, _, _, _, e⟩ <;> rw [e]
  · exact .refl s
  · exact inner_setChannel ..

theorem inner_kickLines (s : State) : Inner s (kickLines s) := .foldl inner_kickLine ..

/-! ### Requests on channels -/

theorem inner_startChannel (s : State) (c : Nat) : Inner s (startChannel s c) :=
  (inner_setChannel ..).trans (inner_raiseChannel ..)

theorem inner_stopChannel (s : State) (c : Nat) : Inner s (stopChannel s c) := by
  dsimp only [stopChannel]
  exact .ite (fun _ => .refl s) fun _ => .trans (inner_setChannel ..) (.trans (inner_leaveRound ..)
    (.trans (inner_setChannel ..) (.trans (inner_markOnUnits ..) (.trans (inner_disturb ..)
      (.trans (inner_emptySpan ..) (.trans (inner_setChannel ..) (inner_raiseChannel ..)))))))

theorem inner_engageChannel (s : State) (c : Nat) : Inner s (engageChannel s c) :=
  (inner_setChannel ..).trans (inner_raiseChannel ..)

theorem inner_disengageChannel (s : State) (c : Nat) : Inner s (disengageChannel s c) := by
  dsimp only [disengageChannel]
  exact .trans (inner_setChannel ..) (.trans (inner_raiseChannel ..) (.trans (inner_markOnUnits ..)
    (inner_disturb ..)))

theorem inner_haltChannel (s : State) (c : Nat) : Inner s (haltChannel s c) := inner_setChannel ..

theorem inner_takeStart (l : Link) (c : List Byte) (s : State) : Inner s (takeStart l c s).1 := by
  unfold takeStart
  split_ifs
  · exact .refl s
  · exact .refl s
  · exact .foldl inner_startChannel ..

theorem inner_takeStop (l : Link) (c : List Byte) (s : State) : Inner s (takeStop l c s).1 :=
  .foldl inner_stopChannel ..

theorem inner_takeEngage (l : Link) (c : List Byte) (s : State) : Inner s (takeEngage l c s).1 := by
  unfold takeEngage
  split_ifs
  · exact .refl s
  · exact .trans (.foldl inner_engageChannel ..) ((inner_contributionGained _).trans (inner_raiseOwed ..))

theorem inner_takeDisengage (l : Link) (c : List Byte) (s : State) : Inner s (takeDisengage l c s).1 := by
  unfold takeDisengage
  split_ifs
  · exact .refl s
  · exact .foldl inner_disengageChannel ..

end Sys2Proof.Machine

/-! PROOF. The share records in use keep their numbers apart and of the pool, and stay grouped by entry, through every
way in which the Share Table writes them: freeing, trimming, an offer's records and a replan's (R104, R109, R116 to
R118; log 18). -/

namespace Sys2Proof.Machine

/-- Records have numbers of the pool, no number twice, and stand grouped by entry. -/
def Numbered (rs : List ShareRec) : Prop :=
  (rs.map ShareRec.num).Nodup ∧ (∀ r ∈ rs, r.num < 32768) ∧ rs.Pairwise fun a b => a.entry ≤ b.entry

/-- Numbers of the pool, none twice, that no record has. -/
def Unused (nums : List Nat) (rs : List ShareRec) : Prop :=
  nums.Nodup ∧ ∀ m ∈ nums, m < 32768 ∧ ∀ r ∈ rs, r.num ≠ m

theorem sharesNumbered_iff (s : State) : SharesNumbered s ↔ Numbered s.shares := .rfl

theorem Numbered.sublist {rs qs : List ShareRec} (h : Numbered rs) (sub : qs.Sublist rs) : Numbered qs := by
  obtain ⟨apart, pool, grouped⟩ := h
  exact ⟨apart.sublist (sub.map _), fun r hr => pool r (sub.subset hr), grouped.sublist sub⟩

theorem Numbered.filter {rs : List ShareRec} (h : Numbered rs) (p : ShareRec → Bool) : Numbered (rs.filter p) :=
  h.sublist List.filter_sublist

/-- Rewriting records within their numbers and entries. -/
theorem Numbered.map {rs : List ShareRec} (h : Numbered rs) {f : ShareRec → ShareRec}
    (num : ∀ r, (f r).num = r.num) (entry : ∀ r, (f r).entry = r.entry) : Numbered (rs.map f) := by
  obtain ⟨apart, pool, grouped⟩ := h
  refine ⟨?_, ?_, ?_⟩
  · rwa [List.map_map, show ShareRec.num ∘ f = ShareRec.num from funext num]
  · intro q hq
    obtain ⟨r, hr, rfl⟩ := List.mem_map.1 hq
    exact (num r).symm ▸ pool r hr
  · rw [List.pairwise_map]
    exact grouped.imp fun {a b} hab => by rwa [entry a, entry b]

theorem Numbered.insert {rs qs : List ShareRec} {r : ShareRec} (h : Numbered rs) (perm : qs.Perm (r :: rs))
    (grouped : qs.Pairwise fun a b => a.entry ≤ b.entry) (pool : r.num < 32768) (apart : ∀ q ∈ rs, q.num ≠ r.num) :
    Numbered qs := by
  obtain ⟨apartRs, poolRs, -⟩ := h
  refine ⟨(perm.map _).nodup_iff.2 (List.nodup_cons.2 ⟨?_, apartRs⟩), ?_, grouped⟩
  · intro hm
    obtain ⟨q, hq, e⟩ := List.mem_map.1 hm
    exact apart q hq e
  · intro q hq
    rcases List.mem_cons.1 (perm.mem_iff.1 hq) with rfl | hq
    · exact pool
    · exact poolRs q hq

/-- Of unused numbers, those after the first stay unused when the first is given to a record that joins. -/
theorem Unused.tail {n : Nat} {nums : List Nat} {rs qs : List ShareRec} (h : Unused (n :: nums) rs)
    (joined : ∀ q ∈ qs, q ∈ rs ∨ q.num = n) : Unused nums qs := by
  obtain ⟨apart, unused⟩ := h
  obtain ⟨notIn, apart⟩ := List.nodup_cons.1 apart
  refine ⟨apart, fun m hm => ⟨(unused m (List.mem_cons_of_mem _ hm)).1, fun q hq => ?_⟩⟩
  rcases joined q hq with hq | hq
  · exact (unused m (List.mem_cons_of_mem _ hm)).2 q hq
  · exact fun e => notIn (by rwa [← hq, e])

theorem unused_freeNumbers (rs : List ShareRec) (k : Nat) : Unused (freeNumbers rs k) rs := by
  obtain ⟨unused, apart⟩ := freeNumbers_spec rs k
  exact ⟨apart, unused⟩

theorem Unused.sublist {nums ms : List Nat} {rs : List ShareRec} (h : Unused nums rs) (sub : ms.Sublist nums) :
    Unused ms rs :=
  ⟨h.1.sublist sub, fun m hm => h.2 m (sub.subset hm)⟩

/-! ### Writing new records -/

theorem numbered_joinShare {r : ShareRec} {rs : List ShareRec} (h : Numbered rs) (pool : r.num < 32768)
    (apart : ∀ q ∈ rs, q.num ≠ r.num) : Numbered (joinShare r rs) :=
  h.insert (joinShare_perm r rs) (joinShare_grouped r h.2.2) pool apart

theorem numbered_writeNew {nums : List Nat} {rs : List ShareRec} (h : Numbered rs) (unused : Unused nums rs)
    (new : List ShareRec) : Numbered (writeNew (nums.zip new) rs) := by
  unfold writeNew
  induction nums generalizing rs new with
  | nil => exact h
  | cons n nums ih =>
    cases new with
    | nil => exact h
    | cons r new =>
      obtain ⟨pool, apart⟩ := unused.2 n (List.mem_cons_self ..)
      refine ih (numbered_joinShare h pool apart) (unused.tail fun q hq => ?_) new
      rcases List.mem_cons.1 ((joinShare_perm ..).mem_iff.1 hq) with rfl | hq
      · exact .inr rfl
      · exact .inl hq

/-! ### Trimming -/

theorem trimRecords_nums (q target : Nat) (rs : List ShareRec) :
    List.Sublist ((trimRecords q target rs).map ShareRec.num) (rs.map ShareRec.num) := by
  have sub := trimLoop_nums q rs.reverse (powerSum rs - target)
  rw [List.map_reverse] at sub
  unfold trimRecords
  rw [List.map_reverse]
  simpa using sub.reverse

theorem replaceEntryRecords_perm (e : Nat) (new rs : List ShareRec) :
    (replaceEntryRecords e new rs).Perm (new ++ rs.filter fun r => r.entry ≠ e) := by
  unfold replaceEntryRecords
  generalize rs.filter _ = kept
  induction new generalizing kept with
  | nil => exact .refl _
  | cons r new ih =>
    exact (ih _).trans (((joinShare_perm r kept).append_left new).trans List.perm_middle)

theorem replaceEntryRecords_grouped (e : Nat) (new : List ShareRec) {rs : List ShareRec}
    (h : rs.Pairwise fun a b => a.entry ≤ b.entry) :
    (replaceEntryRecords e new rs).Pairwise fun a b => a.entry ≤ b.entry := by
  unfold replaceEntryRecords
  have kept : (rs.filter fun r => r.entry ≠ e).Pairwise fun a b => a.entry ≤ b.entry :=
    h.sublist List.filter_sublist
  revert kept
  generalize rs.filter _ = kept
  induction new generalizing kept with
  | nil => exact id
  | cons r new ih => exact fun h => ih _ (joinShare_grouped r h)

/-- An entry's records replaced by some of them, changed within their numbers. -/
theorem numbered_replaceEntryRecords {e : Nat} {new rs : List ShareRec} (h : Numbered rs)
    (sub : (new.map ShareRec.num).Sublist ((entryRecords rs e).map ShareRec.num)) :
    Numbered (replaceEntryRecords e new rs) := by
  obtain ⟨apart, pool, grouped⟩ := h
  have nums : ((replaceEntryRecords e new rs).map ShareRec.num).Subperm (rs.map ShareRec.num) := by
    have split : (entryRecords rs e ++ rs.filter fun r => r.entry ≠ e).Perm rs := by
      simpa [entryRecords, ← beq_eq_decide] using List.filter_append_perm (fun r : ShareRec => r.entry == e) rs
    refine ((replaceEntryRecords_perm e new rs).map _).subperm.trans (.trans ?_ (split.map _).subperm)
    rw [List.map_append, List.map_append]
    exact (sub.append (.refl _)).subperm
  refine ⟨?_, ?_, replaceEntryRecords_grouped e new grouped⟩
  · obtain ⟨l, hl, sub⟩ := nums
    exact hl.nodup_iff.1 (apart.sublist sub)
  · intro r hr
    obtain ⟨q, hq, e⟩ := List.mem_map.1 (nums.subset (List.mem_map_of_mem hr))
    exact e ▸ pool q hq

/-! ### A replan's records (R116) -/

theorem joinAfter_eq_or_perm (n : Nat) (r : ShareRec) (rs : List ShareRec) :
    joinAfter n r rs = rs ∨ (joinAfter n r rs).Perm (r :: rs) := by
  induction rs with
  | nil => exact .inl rfl
  | cons x t ih =>
    simp only [joinAfter]
    split_ifs
    · exact .inr (.swap ..)
    · rcases ih with ih | ih
      · exact .inl (by rw [ih])
      · exact .inr ((ih.cons x).trans (.swap ..))

theorem numbered_joinAfter {n : Nat} {r : ShareRec} {rs : List ShareRec} (h : Numbered rs) (pool : r.num < 32768)
    (apart : ∀ q ∈ rs, q.num ≠ r.num) : Numbered (joinAfter n r rs) := by
  rcases joinAfter_eq_or_perm n r rs with e | perm
  · rwa [e]
  · exact h.insert perm (joinAfter_grouped n r h.2.2) pool apart

/-- The share record that a planned continuation becomes under a number (R113). -/
def continuationRecord (number : Nat) (e : Entry) (q : Continuation × Nat) : ShareRec :=
  { num := q.2, entry := number, unit := q.1.unit, cls := classOfProduct e.product, power := q.1.power,
    first := q.1.first, last := q.1.last }

/-- Continuations placed with unused numbers leave the records numbered, and the numbers kept back unused. -/
theorem numbered_continued {nums rest : List Nat} {rs : List ShareRec} (h : Numbered rs)
    (unused : Unused (nums ++ rest) rs) (cs : List Continuation) (number : Nat) (e : Entry) :
    Numbered ((cs.zip nums).foldl (fun rs q => joinAfter q.1.after (continuationRecord number e q) rs) rs) ∧
      Unused rest ((cs.zip nums).foldl (fun rs q => joinAfter q.1.after (continuationRecord number e q) rs) rs) := by
  induction nums generalizing rs cs with
  | nil => simpa using ⟨h, unused⟩
  | cons n nums ih =>
    cases cs with
    | nil => exact ⟨h, unused.sublist (List.sublist_append_right ..)⟩
    | cons c cs =>
      obtain ⟨pool, apart⟩ := unused.2 n (List.mem_cons_self ..)
      refine ih (numbered_joinAfter h pool apart) (Unused.tail unused fun q hq => ?_) cs
      rcases mem_joinAfter hq with hq | ⟨rfl, -⟩
      · exact .inl hq
      · exact .inr rfl

theorem Unused.map {nums : List Nat} {rs : List ShareRec} (h : Unused nums rs) {f : ShareRec → ShareRec}
    (num : ∀ r, (f r).num = r.num) : Unused nums (rs.map f) := by
  refine ⟨h.1, fun m hm => ⟨(h.2 m hm).1, fun q hq => ?_⟩⟩
  obtain ⟨r, hr, rfl⟩ := List.mem_map.1 hq
  exact (num r).symm ▸ (h.2 m hm).2 r hr

/-- A record of the replanned entry after its cut or its reduction (R112, R113). -/
def cutOrReduced (t : Nat) (p : Plan) (r : ShareRec) : ShareRec :=
  if p.cut.contains r.num then { r with last := t }
  else match p.reduced.find? fun q => q.1 == r.num with
    | some q => { r with power := q.2 }
    | none => r

theorem cutOrReduced_num (t : Nat) (p : Plan) (r : ShareRec) : (cutOrReduced t p r).num = r.num := by
  unfold cutOrReduced
  split_ifs
  · rfl
  · cases p.reduced.find? fun q => q.1 == r.num <;> rfl

theorem cutOrReduced_entry (t : Nat) (p : Plan) (r : ShareRec) : (cutOrReduced t p r).entry = r.entry := by
  unfold cutOrReduced
  split_ifs
  · rfl
  · cases p.reduced.find? fun q => q.1 == r.num <;> rfl

theorem numbered_replanRecords {rs : List ShareRec} (h : Numbered rs) (t number : Nat) (e : Entry) (p : Plan) :
    Numbered (replanRecords t number e p rs) := by
  have kept := (h.filter fun r => !p.removed.contains r.num).map (cutOrReduced_num t p) (cutOrReduced_entry t p)
  have unused := unused_freeNumbers ((rs.filter fun r => !p.removed.contains r.num).map (cutOrReduced t p))
    (p.continuations.length + p.fresh.length)
  rw [← List.take_append_drop p.continuations.length (freeNumbers _ _)] at unused
  obtain ⟨numbered, unused⟩ := numbered_continued kept unused p.continuations number e
  refine numbered_writeNew (numbered.map (fun r => ?num) (fun r => ?entry)) (unused.map fun r => ?again) _
  all_goals
    cases p.enlarged.find? _ <;> rfl

end Sys2Proof.Machine

/-! PROOF. What is common to every step: a reflexive and transitive relation that the service of lines, arbiter and
links keeps (`Kept`) is kept by a whole step as soon as the blocks' own operations keep it (95; 10, R166 to R170). -/

namespace Sys2Proof.Machine

/-- A relation between the states before and after that is reflexive, transitive and kept by what every step does
beside its command's own effect. -/
structure Kept (R : State → State → Prop) : Prop where
  refl : ∀ s, R s s
  trans : ∀ {s t u}, R s t → R t u → R s u
  setLink : ∀ l r s, R s (setLink l r s)
  emptyChanges : ∀ s, R s (emptyChanges s)
  kickLine : ∀ s c, R s (kickLine s c)
  arbitrate : ∀ s, R s (arbitrate s)

namespace Kept

variable {R : State → State → Prop}

theorem foldl (h : Kept R) {α : Type} {f : State → α → State} (hf : ∀ s a, R s (f s a)) (l : List α) (s : State) :
    R s (l.foldl f s) := by
  induction l generalizing s with
  | nil => exact h.refl s
  | cons a l ih => exact h.trans (hf s a) (ih (f s a))

/-! ### The end of a step -/

theorem kickTx (h : Kept R) (l : Link) (s : State) : R s (kickTx l s) := by
  rcases kickTx_cases l s with e | ⟨r, e | e⟩ <;> rw [e]
  · exact h.refl s
  · exact h.setLink l r s
  · exact h.trans (h.setLink l r s) (h.emptyChanges _)

theorem serveLink (h : Kept R) (b : Bool) (l : Link) (s : State) : R s (serveLink b l s) := by
  rcases serveLink_cases b l s with ⟨_, _, e⟩ | ⟨_, e⟩ <;> rw [e]
  · exact h.refl s
  · exact h.kickTx l s

theorem settleWith (h : Kept R) (b : Bool) (s : State) : R s (settleWith b s) :=
  h.trans (h.foldl h.kickLine (List.range 8) s) (h.trans (h.arbitrate _) (h.trans (h.serveLink b .tl _)
    (h.trans (h.serveLink b .gl _) (h.trans (h.kickTx .fa _) (h.kickTx .fb _)))))

theorem effect (h : Kept R) {f : State → State} {s t : State} (hf : R s (f s)) (e : effect f s = .next t) :
    R s t := by
  unfold Machine.effect at e
  split_ifs at e <;> obtain rfl := Host.Outcome.next.inj e
  · exact h.refl s
  · exact h.trans hf (h.settleWith false _)

/-! ### Frames -/

theorem frameComplete (h : Kept R) (l : Link) (s : State) : R s (frameComplete l s) := h.setLink ..

theorem setReceiver (h : Kept R) (l : Link) (r : Receiver) (s : State) : R s (setReceiver l r s) := h.setLink ..

theorem oweAnswer (h : Kept R) (l : Link) (tag : Byte) (code : AnswerCode) (result : List Byte) (b : Bool)
    (s : State) : R s (oweAnswer l tag code result b s) := h.setLink ..

theorem oweBusy (h : Kept R) (l : Link) (tag : Byte) (s : State) : R s (oweBusy l tag s) := h.setLink ..

theorem oweTelegram (h : Kept R) (tag : Byte) (code : AnswerCode) (result : List Byte) (s : State) :
    R s (oweTelegram tag code result s) := h.setLink ..

theorem handOn (h : Kept R) {take : Link → List Byte → State → State × Reply} {l : Link} {c : List Byte} {s : State}
    (ht : R s (take l c s).1) (q : Request) (tag : Byte) : R s (handOn q take l tag c s) := by
  rw [handOn_eq]
  cases (take l c s).2 with
  | answer code result => exact h.trans ht (h.trans (h.setLink ..) (h.oweAnswer ..))
  | waits => exact h.trans ht (h.setLink ..)

theorem receiveRequest (h : Kept R) {take : Link → List Byte → State → State × Reply} {l : Link} {c : List Byte}
    (ht : ∀ s, R s (take l c s).1) (q : Request) (tag : Byte) (s : State) :
    R s (receiveRequest q take l tag c s) := by
  refine h.trans (h.frameComplete l s) ?_
  dsimp only [Machine.receiveRequest]
  split_ifs
  · exact h.oweBusy ..
  · cases frameRefusal q l c (Machine.frameComplete l s) with
    | none => exact h.handOn (ht _) ..
    | some code => exact h.oweAnswer ..

theorem receiveUnknown (h : Kept R) (l : Link) (tag : Byte) (s : State) : R s (receiveUnknown l tag s) := by
  refine h.trans (h.frameComplete l s) ?_
  dsimp only [Machine.receiveUnknown]
  split_ifs
  · exact h.oweBusy ..
  · exact h.oweAnswer ..

theorem receiveTelegram (h : Kept R) {c : List Byte} (ht : ∀ s, R s (takeActivate .gl c s).1) (tag : Byte)
    (s : State) : R s (receiveTelegram tag c s) := by
  refine h.trans (h.frameComplete .gl s) ?_
  dsimp only [Machine.receiveTelegram]
  split_ifs
  · exact h.oweTelegram ..
  · cases (takeActivate .gl c (Machine.frameComplete .gl s)).2 with
    | answer code result => exact h.trans (ht _) (h.oweTelegram ..)
    | waits => exact ht _

theorem receiveActivate (h : Kept R) {c : List Byte} (ht : ∀ l s, R s (takeActivate l c s).1) (l : Link) (tag : Byte)
    (s : State) : R s (receiveActivate l tag c s) := by
  cases l with
  | gl => exact h.receiveTelegram (ht .gl) ..
  | tl => exact h.receiveRequest (ht .tl) .activate tag s
  | fa => exact h.receiveRequest (ht .fa) .activate tag s
  | fb => exact h.receiveRequest (ht .fb) .activate tag s

theorem receiveFrame (h : Kept R) (ht : ∀ q l c s, R s (takeOf q l c s).1) (l : Link) (code tag : Byte)
    (c : List Byte) (s : State) : R s (receiveFrame l code tag c s) := by
  unfold Machine.receiveFrame
  cases requestOf code with
  | none => exact h.receiveUnknown ..
  | some q =>
    dsimp only
    split_ifs
    · exact h.receiveTelegram (ht .activate .gl c) ..
    · exact h.receiveRequest (ht q l c) ..

theorem receiveLinkChar (h : Kept R) (ht : ∀ q l c s, R s (takeOf q l c s).1) (l : Link) (s : State) (ch : RxChar) :
    R s (receiveLinkChar l s ch) := by
  refine h.trans (h.setReceiver l (receiveChar (linkOf s l).receiver ch).1 s) ?_
  dsimp only [Machine.receiveLinkChar]
  cases (receiveChar (linkOf s l).receiver ch).2 with
  | none => exact h.refl _
  | some p => exact h.receiveFrame ht ..

theorem endSending (h : Kept R) (l : Link) (s : State) : R s (endSending l s) := by
  unfold Machine.endSending
  cases (linkOf s l).tx with
  | free => exact h.refl s
  | sending kind wire =>
    cases kind with
    | telegram => exact h.setLink ..
    | answer ends => cases ends <;> exact h.setLink ..
    | busy => exact h.setLink ..
    | notice k => exact h.setLink ..

end Kept

/-! ### The commands -/

/-- The frame of a request on its link, received as the command of that request. -/
def receiveCommand (q : Request) (l : Link) (tag : Byte) (c : List Byte) : State → State :=
  if q = .activate then receiveActivate l tag c else receiveRequest q (takeOf q) l tag c

theorem exec_commandOf (q : Request) (l : Link) (tag : Byte) (c : List Byte) (s : State) :
    exec (commandOf q l tag c) s = effect (receiveCommand q l tag c) s := by
  cases q <;> rfl

theorem Kept.receiveCommand {R : State → State → Prop} (h : Kept R) {q : Request} {c : List Byte}
    (ht : ∀ l s, R s (takeOf q l c s).1) (l : Link) (tag : Byte) (s : State) : R s (receiveCommand q l tag c s) := by
  unfold Machine.receiveCommand
  split_ifs with activate
  · subst activate
    exact h.receiveActivate ht ..
  · exact h.receiveRequest (ht l) ..

/-- The commands that are not a request's own. -/
inductive OtherCommand : Instr → Prop
  | reset : OtherCommand .reset
  | releaseOfReset : OtherCommand .releaseOfReset
  | timeMark : OtherCommand .timeMark
  | markWatchExpiry : OtherCommand .markWatchExpiry
  | holdoverSecondTimerExpiry : OtherCommand .holdoverSecondTimerExpiry
  | busy (l code tag c) : OtherCommand (.busy l code tag c)
  | unknownRequestCode (l code tag c) : OtherCommand (.unknownRequestCode l code tag c)
  | discardedFrame (l chars) : OtherCommand (.discardedFrame l chars)
  | intercharacterTimeout (l) : OtherCommand (.intercharacterTimeout l)
  | frameSent (l) : OtherCommand (.frameSent l)
  | channelFrameSent (ch) : OtherCommand (.channelFrameSent ch)
  | channelAnswer (ch chars) : OtherCommand (.channelAnswer ch chars)
  | replyWaitExpiry (ch) : OtherCommand (.replyWaitExpiry ch)
  | strayChannelFrame (ch chars) : OtherCommand (.strayChannelFrame ch chars)
  | exchangeTimerExpiry : OtherCommand .exchangeTimerExpiry
  | frequencySample (bytes) : OtherCommand (.frequencySample bytes)
  | sampleByteTimeout : OtherCommand .sampleByteTimeout
  | frequencyWatchExpiry : OtherCommand .frequencyWatchExpiry
  | silenceTimerExpiry : OtherCommand .silenceTimerExpiry
  | replanComplete : OtherCommand .replanComplete
  | tlJobComplete : OtherCommand .tlJobComplete

/-- Every command is the command of a request or one of the others. -/
theorem command_cases (i : Instr) : (∃ q l tag c, i = commandOf q l tag c) ∨ OtherCommand i := by
  cases i with
  | quote l tag c => exact .inl ⟨.quote, l, tag, c, rfl⟩
  | offer l tag c => exact .inl ⟨.offer, l, tag, c, rfl⟩
  | award l tag c => exact .inl ⟨.award, l, tag, c, rfl⟩
  | withdraw l tag c => exact .inl ⟨.withdraw, l, tag, c, rfl⟩
  | discard l tag c => exact .inl ⟨.discard, l, tag, c, rfl⟩
  | list l tag c => exact .inl ⟨.list, l, tag, c, rfl⟩
  | entry l tag c => exact .inl ⟨.entry, l, tag, c, rfl⟩
  | take l tag c => exact .inl ⟨.take, l, tag, c, rfl⟩
  | margin l tag c => exact .inl ⟨.margin, l, tag, c, rfl⟩
  | units l tag c => exact .inl ⟨.units, l, tag, c, rfl⟩
  | feeders l tag c => exact .inl ⟨.feeders, l, tag, c, rfl⟩
  | settings l tag c => exact .inl ⟨.settings, l, tag, c, rfl⟩
  | map l tag c => exact .inl ⟨.map, l, tag, c, rfl⟩
  | time l tag c => exact .inl ⟨.time, l, tag, c, rfl⟩
  | gate l tag c => exact .inl ⟨.gate, l, tag, c, rfl⟩
  | feeder l tag c => exact .inl ⟨.feeder, l, tag, c, rfl⟩
  | product l tag c => exact .inl ⟨.product, l, tag, c, rfl⟩
  | deadband l tag c => exact .inl ⟨.deadband, l, tag, c, rfl⟩
  | activate l tag c => exact .inl ⟨.activate, l, tag, c, rfl⟩
  | override l tag c => exact .inl ⟨.override, l, tag, c, rfl⟩
  | clear l tag c => exact .inl ⟨.clear, l, tag, c, rfl⟩
  | release l tag c => exact .inl ⟨.release, l, tag, c, rfl⟩
  | thresholds l tag c => exact .inl ⟨.thresholds, l, tag, c, rfl⟩
  | lockShort l tag c => exact .inl ⟨.lockShort, l, tag, c, rfl⟩
  | lineMode l tag c => exact .inl ⟨.lineMode, l, tag, c, rfl⟩
  | dispatch l tag c => exact .inl ⟨.dispatch, l, tag, c, rfl⟩
  | start l tag c => exact .inl ⟨.start, l, tag, c, rfl⟩
  | stop l tag c => exact .inl ⟨.stop, l, tag, c, rfl⟩
  | engage l tag c => exact .inl ⟨.engage, l, tag, c, rfl⟩
  | disengage l tag c => exact .inl ⟨.disengage, l, tag, c, rfl⟩
  | set l tag c => exact .inl ⟨.set, l, tag, c, rfl⟩
  | channels l tag c => exact .inl ⟨.channels, l, tag, c, rfl⟩
  | _ => exact .inr (by constructor)

/-- The operations by which the commands that are not a request's own change the state. -/
structure EventsKept (R : State → State → Prop) : Prop where
  startTimers : ∀ s, R s (startTimers s)
  takeTimeMark : ∀ s, R s (takeTimeMark s)
  takeMarkWatch : ∀ s, R s (takeMarkWatch s)
  takeHoldoverSecond : ∀ s, R s (takeHoldoverSecond s)
  endChannelSending : ∀ c s, R s (endChannelSending c s)
  takeAnswer : ∀ c chars s, R s (takeAnswer c chars s)
  takeReplyWait : ∀ c s, R s (takeReplyWait c s)
  takeExchangeTimer : ∀ s, R s (takeExchangeTimer s)
  sampleByte : ∀ s b, R s (sampleByte s b)
  dropSampleBytes : ∀ s, R s (dropSampleBytes s)
  takeFrequencyWatch : ∀ s, R s (takeFrequencyWatch s)
  takeSilence : ∀ s, R s (takeSilence s)
  takeReplanComplete : ∀ s, R s (takeReplanComplete s)
  takeTlComplete : ∀ s, R s (takeTlComplete s)

theorem Kept.markWatchExpiry {R : State → State → Prop} (h : Kept R) {s t : State} (taken : R s (takeMarkWatch s))
    (e : exec .markWatchExpiry s = .next t) : R s t := by
  have e : execMarkWatchExpiry s = .next t := e
  unfold execMarkWatchExpiry at e
  split_ifs at e <;> obtain rfl := Host.Outcome.next.inj e
  · exact h.refl s
  · exact h.trans taken (h.settleWith ..)

/-- A relation that every operation keeps holds between the states before and after every command but RESET. -/
theorem Kept.exec {R : State → State → Prop} (h : Kept R) (events : EventsKept R)
    (takes : ∀ q l c s, R s (takeOf q l c s).1) {i : Instr} {s t : State} (e : exec i s = .next t)
    (notReset : i ≠ .reset) : R s t := by
  rcases command_cases i with ⟨q, l, tag, c, rfl⟩ | other
  · rw [exec_commandOf] at e
    exact h.effect (h.receiveCommand (fun l s => takes q l c s) l tag s) e
  · cases other with
    | reset => exact absurd rfl notReset
    | releaseOfReset =>
      obtain rfl := Host.Outcome.next.inj e
      split_ifs
      · exact events.startTimers s
      · exact h.refl s
    | timeMark => exact h.effect (events.takeTimeMark s) e
    | markWatchExpiry => exact h.markWatchExpiry (events.takeMarkWatch s) e
    | holdoverSecondTimerExpiry => exact h.effect (events.takeHoldoverSecond s) e
    | busy l code tag c => exact h.effect (h.receiveFrame takes l code tag c s) e
    | unknownRequestCode l code tag c => exact h.effect (h.receiveFrame takes l code tag c s) e
    | discardedFrame l chars =>
      exact h.effect (f := fun s => chars.foldl (Machine.receiveLinkChar l) s)
        (h.foldl (h.receiveLinkChar takes l) chars s) e
    | intercharacterTimeout l => exact h.effect (h.setReceiver l .hunting s) e
    | frameSent l => exact h.effect (h.endSending l s) e
    | channelFrameSent ch => exact h.effect (events.endChannelSending ch s) e
    | channelAnswer ch chars => exact h.effect (events.takeAnswer ch chars s) e
    | replyWaitExpiry ch => exact h.effect (events.takeReplyWait ch s) e
    | strayChannelFrame ch chars => exact h.effect (f := discardStray ch chars) (h.refl s) e
    | exchangeTimerExpiry => exact h.effect (events.takeExchangeTimer s) e
    | frequencySample bytes =>
      exact h.effect (f := fun s => bytes.foldl sampleByte s)
        (h.foldl events.sampleByte bytes s) e
    | sampleByteTimeout => exact h.effect (events.dropSampleBytes s) e
    | frequencyWatchExpiry => exact h.effect (events.takeFrequencyWatch s) e
    | silenceTimerExpiry => exact h.effect (events.takeSilence s) e
    | replanComplete => exact h.effect (events.takeReplanComplete s) e
    | tlJobComplete => exact h.effect (events.takeTlComplete s) e

/-- A step takes the front command from the queue, or idles. -/
theorem step_cases {s t : State} (h : step s = .next t) :
    t = s ∨ ∃ i rest, s.pending = i :: rest ∧ exec i { s with pending := rest } = .next t := by
  unfold step at h
  cases hp : s.pending with
  | nil =>
    rw [hp] at h
    exact .inl (Host.Outcome.next.inj h).symm
  | cons i rest =>
    rw [hp] at h
    exact .inr ⟨i, rest, rfl, h⟩

end Sys2Proof.Machine

/-! PROOF. The invariants that hold of tables, settings, queues, records, maps and margin are kept by every operation of
every block (`Safe`), and so by every step but RESET; after RESET they hold anew. -/

namespace Sys2Proof.Machine

/-! ### The relation -/

/-- From `s` to `t` no invariant of the tables, ranges, bounds, maps and margin is lost, nor the SHORT lock. -/
structure Safe (s t : State) : Prop where
  tables : TablesCanonical s → TablesCanonical t
  settings : SettingsInRange s → SettingsInRange t
  time : TimeInRange s → TimeInRange t
  owners : OwnerLimits s → OwnerLimits t
  queues : QueuesBounded s → QueuesBounded t
  shares : Numbered s.shares → Numbered t.shares
  maps : MapsDisjoint s → MapsDisjoint t
  margin : MarginConsistent s → MarginConsistent t
  lock : s.margin.lock = true → t.margin.lock = true

namespace Safe

theorem refl (s : State) : Safe s s := ⟨id, id, id, id, id, id, id, id, id⟩

theorem trans {s t u : State} (h : Safe s t) (g : Safe t u) : Safe s u where
  tables := g.tables ∘ h.tables
  settings := g.settings ∘ h.settings
  time := g.time ∘ h.time
  owners := g.owners ∘ h.owners
  queues := g.queues ∘ h.queues
  shares := g.shares ∘ h.shares
  maps := g.maps ∘ h.maps
  margin := g.margin ∘ h.margin
  lock := g.lock ∘ h.lock

theorem ite {c : Prop} [Decidable c] {s t u : State} (h : c → Safe s t) (g : ¬c → Safe s u) :
    Safe s (if c then t else u) := by
  split_ifs with hc
  · exact h hc
  · exact g hc

theorem foldl {α : Type} {f : State → α → State} (h : ∀ s a, Safe s (f s a)) (l : List α) (s : State) :
    Safe s (l.foldl f s) := by
  induction l generalizing s with
  | nil => exact refl s
  | cons a l ih => exact (h s a).trans (ih (f s a))

end Safe

theorem Inner.safe {s t : State} (h : Inner s t) : Safe s t where
  tables := fun ⟨units, feeders, channels, entries, current, held, rising⟩ =>
    ⟨h.units units, by rwa [h.feeders], h.channels channels,
      by rwa [h.book], h.current current, h.held held, h.rising rising⟩
  settings := fun ⟨lost, period, timeout, holdback, endurance, deadband, thresholds⟩ => by
    exact ⟨by rwa [h.lostLimit], by rwa [h.period], by rwa [h.period, h.replyTimeout],
      by rw [h.marks.1]; exact holdback, by rwa [h.book], by rwa [h.deadband],
      by rwa [h.warn, h.short, h.hysteresis]⟩
  time := fun range => by
    unfold TimeInRange
    rwa [h.time]
  owners := h.owners
  queues := fun ⟨records, changes, settings⟩ => ⟨h.records records, by rwa [h.book], by rwa [h.queue]⟩
  shares := fun numbered => by rwa [h.shares]
  maps := fun apart => by
    obtain ⟨mapA, mapB, -⟩ := h.links
    unfold MapsDisjoint
    rwa [mapA, mapB]
  margin := h.margin
  lock := fun lock => by rwa [h.lock]

/-! ### What every step does -/

theorem safe_setLink (l : Link) (r : LinkRec) (s : State) : Safe s (setLink l r s) := by
  cases l <;> exact { Safe.refl s with }

theorem safe_emptyChanges (s : State) : Safe s (emptyChanges s) :=
  { Safe.refl s with
    queues := fun ⟨records, _, settings⟩ => ⟨records, by simp [emptyChanges], settings⟩ }

/-- Of the Evaluator the invariants read the holdback, the minimum share and the order of the replan-pending set. -/
theorem safe_setEval {e : Evaluator} {s : State} (holdback : e.holdback = s.eval.holdback)
    (minShare : e.minShare = s.eval.minShare)
    (rising : s.eval.replans.Pairwise (· < ·) → e.replans.Pairwise (· < ·)) : Safe s { s with eval := e } :=
  { Safe.refl s with
    tables := fun ⟨units, feeders, channels, entries, current, held, replans⟩ =>
      ⟨units, feeders, channels, entries, current, held, rising replans⟩
    settings := fun ⟨lost, period, timeout, range, rest⟩ =>
      ⟨lost, period, timeout, by rw [show _ = _ from holdback, show _ = _ from minShare]; exact range, rest⟩ }

theorem safe_grant (kind : JobKind) (s : State) : Safe s (grant kind s) := safe_setEval rfl rfl id

theorem safe_grantTl (r : TlRequest) (s : State) : Safe s (grantTl r s) := by
  have fetched : Safe s { s with eval := { s.eval with slot := none, runCount := 0 } } := safe_setEval rfl rfl id
  cases r with
  | quote q => exact fetched.trans (safe_grant ..)
  | offer o => exact fetched.trans (safe_grant ..)

theorem safe_takeFlag {n : Nat} {rest : List Nat} {s : State} (h : s.eval.replans = n :: rest) :
    Safe s (takeFlag rest s) :=
  safe_setEval rfl rfl fun rising => by
    rw [h] at rising
    exact rising.of_cons

theorem safe_arbiterLoop (fuel : Nat) (s : State) : Safe s (arbiterLoop fuel s) := by
  induction fuel generalizing s with
  | zero => exact .refl s
  | succ fuel ih =>
    unfold arbiterLoop
    cases tlTurn s with
    | some r => exact safe_grantTl ..
    | none =>
      dsimp only
      cases flags : s.eval.replans with
      | nil => exact .refl s
      | cons n rest =>
        dsimp only
        cases replanEntry (takeFlag rest s) n with
        | some e => exact (safe_takeFlag flags).trans (safe_grant ..)
        | none => exact (safe_takeFlag flags).trans (ih _)

theorem safe_arbitrate (s : State) : Safe s (arbitrate s) := by
  unfold arbitrate
  cases s.eval.job with
  | some j => exact .refl s
  | none => exact safe_arbiterLoop ..

theorem kept_safe : Kept Safe where
  refl := .refl
  trans := .trans
  setLink := safe_setLink
  emptyChanges := safe_emptyChanges
  kickLine := fun s c => (inner_kickLine s c).safe
  arbitrate := safe_arbitrate

/-! ### Share records and entries -/

theorem safe_setShares {rs : List ShareRec} {s : State} (h : Numbered s.shares → Numbered rs) :
    Safe s (setShares rs s) :=
  { Safe.refl s with shares := h }

theorem safe_freeEntry (e : Nat) (s : State) : Safe s (freeEntry e s) := safe_setShares fun h => h.filter _

theorem safe_freeEnded (t : Nat) (s : State) : Safe s (freeEnded t s) := safe_setShares fun h => h.filter _

/-- The entries written, their numbers still rising. -/
theorem safe_setEntries {es : List (Nat × Entry)} {s : State} (h : Ascending s.book.entries → Ascending es) :
    Safe s { s with book := { s.book with entries := es } } :=
  { Safe.refl s with
    tables := fun ⟨units, feeders, channels, entries, rest⟩ => ⟨units, feeders, channels, h entries, rest⟩ }

theorem safe_setEntry (n : Nat) (e : Entry) (s : State) : Safe s (setEntry n e s) :=
  safe_setEntries fun h => ascending_tableInsert h ..

theorem map_entry_placeMember (n : Nat) (state : Bool) (b : Book) :
    (placeMember n state b).changes.map ChangeMember.entry =
      if n ∈ b.changes.map ChangeMember.entry ∨ 64 ≤ b.changes.length then b.changes.map ChangeMember.entry
      else b.changes.map ChangeMember.entry ++ [n] := by
  have listed : (b.changes.any fun m => m.entry == n) = true ↔ n ∈ b.changes.map ChangeMember.entry := by simp
  unfold placeMember
  have bound : Config.changeMembers = 64 := rfl
  by_cases on : n ∈ b.changes.map ChangeMember.entry
  · rw [if_pos (listed.2 on), if_pos (.inl on), List.map_map]
    refine List.map_congr_left fun m _ => ?_
    by_cases hm : m.entry = n <;> simp [hm]
  · rw [if_neg (mt listed.1 on)]
    by_cases room : b.changes.length < Config.changeMembers
    · rw [if_pos room, if_neg (by simp only [on, false_or]; omega)]
      simp
    · rw [if_neg room, if_pos (.inr (by omega))]

theorem placeMember_entries (n : Nat) (state : Bool) (b : Book) : (placeMember n state b).entries = b.entries := by
  unfold placeMember
  split_ifs <;> rfl

theorem placeMember_endurance (n : Nat) (state : Bool) (b : Book) :
    (placeMember n state b).endurance = b.endurance := by
  unfold placeMember
  split_ifs <;> rfl

/-- The change list holds at most 64 entries, each once (R75). -/
theorem changes_placeMember (n : Nat) (state : Bool) {b : Book}
    (h : b.changes.length ≤ 64 ∧ (b.changes.map ChangeMember.entry).Nodup) :
    (placeMember n state b).changes.length ≤ 64 ∧
      ((placeMember n state b).changes.map ChangeMember.entry).Nodup := by
  obtain ⟨bound, apart⟩ := h
  rw [← List.length_map (f := ChangeMember.entry), map_entry_placeMember]
  split_ifs with full
  · exact ⟨by rwa [List.length_map], apart⟩
  · push Not at full
    obtain ⟨new, room⟩ := full
    refine ⟨by simp only [List.length_append, List.length_map, List.length_singleton]; omega, ?_⟩
    exact List.nodup_append.2 ⟨apart, List.nodup_singleton n, fun a ha b hb => by
      rw [List.mem_singleton.1 hb]
      rintro rfl
      exact new ha⟩

theorem safe_placeChange (n : Nat) (state : Bool) (s : State) : Safe s (placeChange n state s) :=
  .trans (t := { s with book := placeMember n state s.book })
    { Safe.refl s with
      tables := fun h => by
        unfold TablesCanonical
        rwa [placeMember_entries]
      settings := fun h => by
        unfold SettingsInRange
        rwa [placeMember_endurance]
      queues := fun ⟨records, changes, settings⟩ => ⟨records, changes_placeMember n state changes, settings⟩ }
    (inner_raiseOn ..).safe

theorem safe_endEntry (n : Nat) (e : Entry) (st : EntryState) (s : State) : Safe s (endEntry n e st s) :=
  (safe_setEntry ..).trans (safe_freeEntry ..)

/-! ### The slot boundary -/

theorem safe_boundaryEntry (t : Nat) (s : State) (p : Nat × Entry) : Safe s (boundaryEntry t s p) := by
  unfold boundaryEntry
  cases boundaryState t s.time.gate p.2 with
  | none => exact .refl s
  | some st =>
    exact .trans (safe_setEntry ..) (.trans (.ite (fun _ => safe_freeEntry ..) fun _ => .refl _)
      (safe_placeChange ..))

theorem safe_bookBoundary (t : Nat) (s : State) : Safe s (bookBoundary t s) := .foldl (safe_boundaryEntry t) ..

theorem inner_drainOne (s : State) (q : QueuedSetting) : Inner s (drainOne s q) :=
  .ite (fun _ => .ite (fun _ => (inner_applySetting ..).trans (inner_markOnUnits ..)) fun _ => inner_applySetting ..)
    fun _ => .refl s

theorem safe_drainQueue (s : State) : Safe s (drainQueue s) :=
  .trans (Inner.foldl inner_drainOne s.queue s).safe
    { Safe.refl (s.queue.foldl drainOne s) with
      queues := fun ⟨records, changes, _⟩ => ⟨records, changes, by simp [drainQueue]⟩ }

theorem safe_boundaryTables (t : Nat) (s : State) : Safe s (boundaryTables t s) := by
  unfold boundaryTables
  refine .ite (fun _ => (safe_bookBoundary ..).trans (safe_freeEnded ..)) fun _ => ?_
  rcases Config.drainOrder s.freeTick with ⟨_ | _, _ | _⟩
  · exact (safe_bookBoundary ..).trans ((safe_freeEnded ..).trans (safe_drainQueue _))
  · exact (safe_bookBoundary ..).trans ((safe_drainQueue _).trans (safe_freeEnded ..))
  · exact (safe_freeEnded ..).trans ((safe_drainQueue _).trans (safe_bookBoundary ..))
  · exact (safe_drainQueue _).trans ((safe_bookBoundary ..).trans (safe_freeEnded ..))

theorem safe_noteBoundary (s : State) : Safe s (noteBoundary s) := by
  unfold noteBoundary
  cases s.eval.job with
  | none => exact .refl s
  | some j => exact safe_setEval rfl rfl id

theorem inner_closeAccumulator (t : Nat) (s : State) (p : Nat × Accumulator) : Inner s (closeAccumulator t s p) := by
  unfold closeAccumulator
  have closed : Inner s { s with track := { s.track with current := tableErase s.track.current p.1 } } :=
    { Inner.refl s with current := fun h => ascending_tableErase h p.1 }
  refine .ite (fun _ => closed.trans ?_) fun _ => .refl s
  dsimp only
  cases s.ctl.round with
  | none => exact inner_emitRecord ..
  | some r =>
    cases s.track.roll with
    | none => exact inner_emitRecord ..
    | some roll =>
      exact .ite (fun _ => { Inner.refl _ with held := fun h => ascending_tableInsert h .. }) fun _ => inner_emitRecord ..

theorem inner_closeAccumulators (t : Nat) (s : State) : Inner s (closeAccumulators t s) :=
  .foldl (inner_closeAccumulator t) ..

theorem inner_openAccumulators (t : Nat) (s : State) : Inner s (openAccumulators t s) :=
  .foldl (fun u _ => .ite (fun _ => by exact { Inner.refl u with current := fun h => ascending_tableInsert h .. })
    fun _ => .refl _) ..

theorem safe_slotBoundary (s : State) : Safe s (slotBoundary s) := by
  dsimp only [slotBoundary]
  have opened := ((safe_noteBoundary s).trans (inner_closeAccumulators s.time.slot _).safe).trans
    ((safe_boundaryTables s.time.slot _).trans (inner_openAccumulators s.time.slot _).safe)
  exact opened.trans { Safe.refl (openAccumulators s.time.slot _) with }

theorem safe_setTime {b : TimeBase} {s : State}
    (h : TimeInRange s → b.second ≤ 899 ∧ b.slot ≤ 4294967295 ∧ 1 ≤ b.gate ∧ b.gate ≤ 8) :
    Safe s { s with time := b } :=
  { Safe.refl s with time := h }

/-- The mark watch, the holdover flag and the holdover timer are in no invariant. -/
theorem safe_setWatches (holdover : Bool) (watch timer : Timer) (s : State) :
    Safe s { s with time := { s.time with holdover := holdover, markWatch := watch, holdoverTimer := timer } } :=
  safe_setTime id

theorem safe_secondStep (s : State) : Safe s (secondStep s) := by
  unfold secondStep
  refine .ite (fun _ => .refl s) fun _ => .ite (fun within => safe_setTime ?_) fun _ =>
    .ite (fun _ => safe_setTime ?_) fun next => .trans (safe_setTime ?_) (safe_slotBoundary _)
  · exact fun ⟨_, rest⟩ => ⟨by simpa using within, rest⟩
  · exact fun ⟨_, rest⟩ => ⟨Nat.zero_le _, rest⟩
  · exact fun ⟨_, slot, rest⟩ => ⟨Nat.zero_le _, by unfold Config.maxSlot at next; dsimp only; omega, rest⟩

theorem safe_takeTimeMark (s : State) : Safe s (takeTimeMark s) :=
  .ite (fun _ => (safe_setWatches ..).trans (inner_raiseTlGl ..).safe)
    fun _ => (safe_secondStep s).trans (safe_setWatches ..)

theorem safe_enterHoldover (s : State) : Safe s (enterHoldover s) := by
  dsimp only [enterHoldover]
  exact .trans (safe_setWatches ..) (.trans (safe_secondStep _) (.trans (safe_secondStep _)
    (.trans (safe_setWatches ..) (inner_raiseTlGl ..).safe)))

theorem safe_takeMarkWatch (s : State) : Safe s (takeMarkWatch s) :=
  .ite (fun _ => safe_enterHoldover s) fun _ => .refl s

theorem safe_takeHoldoverSecond (s : State) : Safe s (takeHoldoverSecond s) :=
  .ite (fun _ => (safe_secondStep s).trans (safe_setWatches ..)) fun _ => .refl s

/-! ### Channel events and the exchange timer -/

theorem safe_takeExchangeTimer (s : State) : Safe s (takeExchangeTimer s) :=
  .ite (fun _ => .trans (t := { s with ctl := { s.ctl with exchangeTimer := some s.ctl.period } }) { Safe.refl s with }
    (.ite (fun _ => { Safe.refl s with }) fun _ => (inner_beginRound _).safe)) fun _ => .refl s

/-! ### Jobs -/

theorem safe_dropJob (s : State) : Safe s (dropJob s) := safe_setEval rfl rfl id

theorem safe_answerTl (code : AnswerCode) (result : List Byte) (s : State) : Safe s (answerTl code result s) := by
  unfold answerTl
  cases (linkOf s .tl).inProcess with
  | none => exact .refl s
  | some p => exact safe_setLink ..

theorem safe_advanceStart (p : Plan) (s : State) : Safe s (advanceStart p s) := by
  unfold advanceStart
  cases p.lastUnit with
  | none => exact .refl s
  | some i => exact safe_setEval rfl rfl id

theorem safe_writeReplan (j : Job) (number : Nat) (e now : Entry) (s : State) :
    Safe s (writeReplan j number e now s) := by
  dsimp only [writeReplan]
  refine .ite (fun _ => .refl s) fun _ => ?_
  exact .trans (safe_setShares fun h => numbered_replanRecords h ..) (.trans (safe_setEntry ..)
    (.trans (.ite (fun _ => safe_placeChange ..) fun _ => .refl _) (safe_advanceStart ..)))

theorem safe_completeReplan (j : Job) (number : Nat) (e : Entry) (s : State) :
    Safe s (completeReplan j number e s) := by
  unfold completeReplan
  cases entryOf s number with
  | none => exact .refl s
  | some now =>
    exact .ite (fun _ => .refl s) fun _ => .ite (fun _ => (inner_markEntries ..).safe) fun _ =>
      .trans (safe_writeReplan ..) (.ite (fun _ => (inner_markEntries ..).safe) fun _ => .refl _)

theorem safe_takeReplanComplete (s : State) : Safe s (takeReplanComplete s) := by
  unfold takeReplanComplete
  cases s.eval.job with
  | none => exact .refl s
  | some j =>
    dsimp only
    cases j.kind with
    | replan n e => exact (safe_completeReplan ..).trans (safe_dropJob _)
    | quote q => exact .refl s
    | offer o => exact .refl s

theorem safe_admitOffer (j : Job) (o : OfferReq) (number booked : Nat) (s : State) :
    Safe s (admitOffer j o number booked s) := by
  dsimp only [admitOffer]
  exact .trans (safe_setEntry ..) (.trans
    (safe_setShares fun h => numbered_writeNew h (unused_freeNumbers ..) _)
    (.trans (safe_advanceStart ..) (.ite (fun _ => (inner_markEntries ..).safe) fun _ => .refl _)))

theorem safe_bookOffer (j : Job) (o : OfferReq) (booked : Nat) (s : State) : Safe s (bookOffer j o booked s) := by
  unfold bookOffer
  refine .ite (fun _ => safe_answerTl ..) fun _ => ?_
  cases lowestFreeEntry s with
  | none => exact safe_answerTl ..
  | some n => exact (safe_admitOffer ..).trans (safe_answerTl ..)

theorem safe_completeOffer (j : Job) (o : OfferReq) (s : State) : Safe s (completeOffer j o s) := by
  unfold completeOffer
  cases offerOutcome j o with
  | ok booked => exact safe_bookOffer ..
  | error code => exact safe_answerTl ..

theorem safe_takeTlComplete (s : State) : Safe s (takeTlComplete s) := by
  unfold takeTlComplete
  cases s.eval.job with
  | none => exact .refl s
  | some j =>
    dsimp only
    cases j.kind with
    | quote q => exact (safe_answerTl ..).trans (safe_dropJob _)
    | offer o => exact (safe_completeOffer ..).trans (safe_dropJob _)
    | replan n e => exact .refl s

/-! ### The frequency input and the silence timer -/

/-- Of the Dispatcher the invariants read the deadband. -/
theorem safe_setDisp {d : Dispatcher} {s : State} (h : s.disp.deadband ≤ 50 → d.deadband ≤ 50 := by exact id) :
    Safe s { s with disp := d } :=
  { Safe.refl s with
    settings := fun ⟨lost, period, timeout, holdback, endurance, deadband, rest⟩ =>
      ⟨lost, period, timeout, holdback, endurance, h deadband, rest⟩ }

theorem safe_takeSample (d : Int) (s : State) : Safe s (takeSample d s) :=
  .ite (fun _ => .ite (fun _ => Safe.trans safe_setDisp (inner_raiseTlGl ..).safe) fun _ => safe_setDisp)
    fun _ => .refl s

theorem safe_sampleByte (s : State) (b : Byte) : Safe s (sampleByte s b) := by
  dsimp only [sampleByte]
  cases (receiveSampleByte s.disp.receiver b).2 with
  | none => exact safe_setDisp
  | some d => exact .trans safe_setDisp (safe_takeSample ..)

theorem safe_takeFrequencyWatch (s : State) : Safe s (takeFrequencyWatch s) :=
  .ite (fun _ => .trans safe_setDisp (inner_raiseTlGl ..).safe) fun _ => .refl s

theorem safe_takeSilence (s : State) : Safe s (takeSilence s) :=
  .ite (fun _ => .trans safe_setDisp (inner_raiseTlGl ..).safe) fun _ => .refl s

theorem events_safe : EventsKept Safe where
  startTimers := fun s => { Safe.refl s with }
  takeTimeMark := safe_takeTimeMark
  takeMarkWatch := safe_takeMarkWatch
  takeHoldoverSecond := safe_takeHoldoverSecond
  endChannelSending := fun c s => (inner_endChannelSending c s).safe
  takeAnswer := fun c chars s => (inner_takeAnswer c chars s).safe
  takeReplyWait := fun c s => (inner_takeReplyWait c s).safe
  takeExchangeTimer := safe_takeExchangeTimer
  sampleByte := safe_sampleByte
  dropSampleBytes := fun _ => safe_setDisp
  takeFrequencyWatch := safe_takeFrequencyWatch
  takeSilence := safe_takeSilence
  takeReplanComplete := safe_takeReplanComplete
  takeTlComplete := safe_takeTlComplete

end Sys2Proof.Machine

/-! PROOF. Every request's own operation keeps the invariants of tables, ranges, bounds, maps and margin; with the
events they make `Safe` hold of every step but RESET. -/

namespace Sys2Proof.Machine

/-! ### Commitment Book and Evaluator -/

theorem safe_setProduct (p : Product) (v : Nat) (s : State) : Safe s (setProduct p v s).1 := by
  unfold setProduct
  split_ifs with query misfit held
  · exact .refl s
  · exact .refl s
  · exact .refl s
  · have fits : EnduranceInRange v := (enduranceFits_iff v).1 (by simpa using misfit)
    exact { Safe.refl s with settings := fun ⟨lost, period, timeout, holdback, endurance, rest⟩ =>
      ⟨lost, period, timeout, holdback, fun q => by
        have old := endurance q
        cases p <;> cases q <;> first | exact fits | exact old, rest⟩ }

theorem safe_takeProduct (l : Link) (c : List Byte) (s : State) : Safe s (takeProduct l c s).1 := by
  unfold takeProduct
  cases productOf (readU c 0 1) with
  | none => exact .refl s
  | some p => exact safe_setProduct ..

theorem safe_placeTl (r : TlRequest) (s : State) : Safe s (placeTl r s) := safe_setEval rfl rfl id

theorem safe_takeOffer (l : Link) (c : List Byte) (s : State) : Safe s (takeOffer l c s).1 := by
  unfold takeOffer
  split_ifs
  · exact .refl s
  · cases productOf (readU c 4 1) with
    | none => exact .refl s
    | some p =>
      dsimp only
      cases offerRefusal s (readU c 0 4) (readU c 5 4) (readU c 9 1) (readU c 10 2) with
      | some code => exact .refl s
      | none => exact safe_placeTl ..

theorem safe_takeQuote (l : Link) (c : List Byte) (s : State) : Safe s (takeQuote l c s).1 := by
  unfold takeQuote
  by_cases unset : s.time.timeSet = false
  · rw [if_pos unset]
    exact .refl s
  · rw [if_neg unset]
    cases productOf (readU c 0 1) with
    | none => exact .refl s
    | some p =>
      dsimp only
      split_ifs
      · exact .refl s
      · exact safe_placeTl ..

theorem safe_noteAward (n : Nat) (s : State) : Safe s (noteAward n s) := by
  unfold noteAward
  cases s.eval.job with
  | none => exact .refl s
  | some j =>
    dsimp only
    cases j.kind with
    | replan m e => exact .ite (fun _ => safe_setEval rfl rfl id) fun _ => .refl s
    | quote q => exact .refl s
    | offer o => exact .refl s

theorem safe_awardEntry (n awarded : Nat) (e : Entry) (s : State) : Safe s (awardEntry n awarded e s) :=
  .trans (safe_setShares fun h => numbered_replaceEntryRecords h (trimRecords_nums ..))
    (.trans (safe_setEntry ..) (safe_noteAward ..))

theorem safe_awardFound (n a : Nat) (e : Entry) (s : State) : Safe s (awardFound n a e s).1 := by
  unfold awardFound
  split_ifs
  · exact .refl s
  · exact .refl s
  · exact safe_endEntry ..
  · exact safe_awardEntry ..

theorem safe_takeAward (l : Link) (c : List Byte) (s : State) : Safe s (takeAward l c s).1 := by
  unfold takeAward
  split_ifs
  · exact .refl s
  · cases findEntry s (readU c 0 2) (readU c 2 4) with
    | error code => exact .refl s
    | ok e => exact safe_awardFound ..

theorem safe_takeWithdraw (l : Link) (c : List Byte) (s : State) : Safe s (takeWithdraw l c s).1 := by
  unfold takeWithdraw
  cases findEntry s (readU c 0 2) (readU c 2 4) with
  | error code => exact .refl s
  | ok e =>
    dsimp only [withdrawFound]
    split_ifs
    · exact safe_endEntry ..
    · exact .refl s
    · exact .refl s

theorem safe_freeNumber (n : Nat) (s : State) : Safe s (freeNumber n s) :=
  .trans (safe_setEntries (es := tableErase s.book.entries n) fun h => ascending_tableErase h n)
    (safe_setEval rfl rfl fun rising => rising.filter _)

theorem safe_takeDiscard (l : Link) (c : List Byte) (s : State) : Safe s (takeDiscard l c s).1 := by
  unfold takeDiscard
  cases findEntry s (readU c 0 2) (readU c 2 4) with
  | error code => exact .refl s
  | ok e =>
    dsimp only [discardFound]
    split_ifs
    · exact .refl s
    · exact .refl s
    · exact safe_freeNumber ..

theorem inner_emitReleased (n : Nat) (s : State) : Inner s (emitReleased n s) := by
  unfold emitReleased
  cases tableFind s.track.current n with
  | none => exact .refl s
  | some a =>
    exact .trans (t := { s with track := { s.track with current := tableErase s.track.current n } })
      { Inner.refl s with current := fun h => ascending_tableErase h n } (inner_emitRecord ..)

theorem safe_releaseEntry (n : Nat) (e : Entry) (s : State) : Safe s (releaseEntry n e s) := by
  dsimp only [releaseEntry]
  exact .trans (.ite (fun _ => (inner_emitReleased ..).safe) fun _ => .refl s)
    ((safe_endEntry ..).trans (safe_placeChange ..))

theorem safe_takeRelease (l : Link) (c : List Byte) (s : State) : Safe s (takeRelease l c s).1 := by
  unfold takeRelease
  cases findEntry s (readU c 0 2) (readU c 2 4) with
  | error code => exact .refl s
  | ok e =>
    dsimp only [releaseFound]
    split_ifs
    · exact safe_releaseEntry ..
    · exact .refl s

theorem takeList_state (l : Link) (c : List Byte) (s : State) : (takeList l c s).1 = s := by
  unfold takeList
  split_ifs <;> rfl

theorem takeEntry_state (l : Link) (c : List Byte) (s : State) : (takeEntry l c s).1 = s := by
  unfold takeEntry
  by_cases above : 1023 < readU c 0 2
  · rw [if_pos above]
  · rw [if_neg above]
    cases entryOf s (readU c 0 2) with
    | none => rfl
    | some e =>
      dsimp only
      split_ifs <;> rfl

/-! ### Dispatcher -/

theorem safe_takeDeadband (l : Link) (c : List Byte) (s : State) : Safe s (takeDeadband l c s).1 := by
  unfold takeDeadband
  split_ifs with change above
  · exact .refl s
  · exact .refl s
  · exact safe_setDisp fun _ => not_lt.1 above

theorem safe_storeRequested (keep : Bool) (p r : Nat) (s : State) : Safe s (storeRequested keep p r s) :=
  .ite (fun _ => .refl s) fun _ => .ite (fun _ => safe_setDisp) fun _ => safe_setDisp

theorem safe_endSilence (s : State) : Safe s (endSilence s) :=
  .ite (fun _ => .trans safe_setDisp (inner_raiseTlGl ..).safe) fun _ => safe_setDisp

theorem safe_takeActivate (l : Link) (c : List Byte) (s : State) : Safe s (takeActivate l c s).1 := by
  dsimp only [takeActivate]
  split_ifs
  · exact .refl s
  · exact (safe_storeRequested ..).trans (safe_endSilence _)

theorem safe_putOverride (o : Override) (s : State) : Safe s (putOverride o s) := by
  dsimp only [putOverride]
  exact .trans (t := { s with disp := { s.disp with override := o } }) safe_setDisp
    (.trans (inner_raiseOverride _).safe
      (.ite (fun _ => (Inner.foldl inner_haltChannel ..).safe) fun _ => .refl _))

theorem safe_takeOverride (l : Link) (c : List Byte) (s : State) : Safe s (takeOverride l c s).1 := by
  unfold takeOverride
  cases overrideOf (readU c 0 1) with
  | none => exact .refl s
  | some o =>
    dsimp only
    split_ifs
    · exact .refl s
    · exact safe_putOverride ..

theorem safe_takeClear (l : Link) (c : List Byte) (s : State) : Safe s (takeClear l c s).1 := by
  unfold takeClear
  split_ifs
  · exact .refl s
  · exact .trans safe_setDisp (inner_raiseOverride _).safe

/-! ### Delivery Tracker and Margin Monitor -/

theorem safe_takeTake (l : Link) (c : List Byte) (s : State) : Safe s (takeTake l c s).1 := by
  unfold takeTake
  cases queued : s.track.queue with
  | nil => exact .refl s
  | cons r rest =>
    exact { Safe.refl s with queues := fun ⟨records, others⟩ => ⟨by rw [queued] at records; exact Nat.le_of_succ_le records, others⟩ }

/-- The thresholds in their ranges. -/
def ThresholdsFit (m : MarginMonitor) : Prop :=
  1000 ≤ m.warn ∧ m.warn ≤ 2000 ∧ 800 ≤ m.short ∧ m.short ≤ 1500 ∧ m.short ≤ m.warn ∧ m.hysteresis ∈ [0, 10, 25, 50]

theorem safe_setMargin {m : MarginMonitor} {s : State} (fits : ThresholdsFit s.margin → ThresholdsFit m)
    (consistent : MarginConsistent s → MarginConsistent { s with margin := m })
    (lock : s.margin.lock = true → m.lock = true) : Safe s { s with margin := m } :=
  { Safe.refl s with
    settings := fun ⟨lost, period, timeout, holdback, endurance, deadband, thresholds⟩ =>
      ⟨lost, period, timeout, holdback, endurance, deadband, fits thresholds⟩
    margin := consistent
    lock := lock }

theorem safe_takeMargin (l : Link) (c : List Byte) (s : State) : Safe s (takeMargin l c s).1 :=
  safe_setMargin id (fun ⟨up, down, overall, line⟩ => ⟨up, down, overall, fun level => by
    have level : s.margin.mode = .level := level
    simpa [lineAfterRead, level] using line level⟩) id

/-- What passes the range checks of R157. -/
theorem thresholdsOutOfRange_iff (r : ThresholdsReq) :
    thresholdsOutOfRange r = true ↔
      ¬(r.warn = 0 ∨ (1000 ≤ r.warn ∧ r.warn ≤ 2000)) ∨ ¬(r.short = 0 ∨ (800 ≤ r.short ∧ r.short ≤ 1500)) ∨
        (r.change = true ∧ r.hysteresis ∉ [0, 10, 25, 50]) := by
  have notListed : (!([0, 10, 25, 50].contains r.hysteresis)) = true ↔ r.hysteresis ∉ [0, 10, 25, 50] := by simp
  simp only [thresholdsOutOfRange, Bool.or_eq_true, Bool.and_eq_true, decide_eq_true_eq, notListed, or_assoc]
  exact or_congr (by omega) (or_congr (by omega) .rfl)

theorem thresholdsFit_storeThresholds {r : ThresholdsReq} {m : MarginMonitor}
    (inRange : ¬thresholdsOutOfRange r = true) (h : ThresholdsFit m) : ThresholdsFit (storeThresholds r m) := by
  rw [thresholdsOutOfRange_iff] at inRange
  push Not at inRange
  obtain ⟨warn, short, hyst⟩ := inRange
  obtain ⟨warnLow, warnHigh, shortLow, shortHigh, order, known⟩ := h
  have hysteresis : (if r.change = true then r.hysteresis else m.hysteresis) ∈ [0, 10, 25, 50] := by
    split_ifs with change
    · exact hyst change
    · exact known
  refine ⟨?_, ?_, ?_, ?_, ?_, hysteresis⟩ <;> dsimp only [storeThresholds] <;>
    cases m.lock <;> simp only [and_true, and_false, Bool.false_eq_true, if_false, reduceCtorEq] <;> split_ifs <;> omega

theorem safe_takeThresholds (l : Link) (c : List Byte) (s : State) : Safe s (takeThresholds l c s).1 := by
  dsimp only [takeThresholds]
  split_ifs with out locked
  · exact .refl s
  · exact .refl s
  · exact safe_setMargin (thresholdsFit_storeThresholds out) id id

theorem safe_takeLockShort (l : Link) (c : List Byte) (s : State) : Safe s (takeLockShort l c s).1 :=
  safe_setMargin id id fun _ => rfl

theorem safe_storeMode (v : LineMode) (s : State) : Safe s { s with margin := storeMode v s.margin } := by
  have fits : ThresholdsFit s.margin → ThresholdsFit (storeMode v s.margin) := by
    unfold storeMode
    split_ifs
    · exact id
    · cases v <;> exact id
  have lock : s.margin.lock = true → (storeMode v s.margin).lock = true := by
    unfold storeMode
    split_ifs
    · exact id
    · cases v <;> exact id
  refine safe_setMargin fits (fun h => ?_) lock
  obtain ⟨up, down, overall, line⟩ := h
  by_cases same : v = s.margin.mode
  · have kept : storeMode v s.margin = s.margin := if_pos same
    rw [kept]
    exact ⟨up, down, overall, line⟩
  · cases v with
    | level =>
      have stored : storeMode .level s.margin = { s.margin with
        mode := .level, asserted := decide (s.margin.overall ≠ .sound) } := if_neg same
      rw [stored]
      exact ⟨up, down, overall, fun _ => rfl⟩
    | latched =>
      have stored : storeMode .latched s.margin = { s.margin with mode := .latched, asserted := false } := if_neg same
      rw [stored]
      exact ⟨up, down, overall, fun level => by cases level⟩

theorem safe_takeLineMode (l : Link) (c : List Byte) (s : State) : Safe s (takeLineMode l c s).1 := by
  unfold takeLineMode
  split
  · exact .refl s
  · exact safe_storeMode ..
  · exact safe_storeMode ..
  · exact .refl s

/-! ### SET -/

/-- Which of a unit's fields a setting is for (R159). -/
def fieldOf : Setting → Nat
  | .floor _ => 1
  | .ceiling _ => 2
  | .excluded _ => 3

theorem sameField_iff (x y : Setting) : sameField x y = true ↔ fieldOf x = fieldOf y := by
  cases x <;> cases y <;> simp [sameField, fieldOf]

/-- The unit and field that a queue entry stands for. -/
def slotOf (q : QueuedSetting) : Nat × Nat := (q.unit, fieldOf q.setting)

theorem sameSlotInQueue_iff (a b : QueuedSetting) : SameSlotInQueue a b ↔ slotOf a = slotOf b := by
  simp [SameSlotInQueue, sameField_iff, slotOf]

theorem queuedFor_iff (i : Nat) (x : Setting) (q : QueuedSetting) :
    queuedFor i x q = true ↔ slotOf q = (i, fieldOf x) := by
  simp [queuedFor, sameField_iff, slotOf]

theorem safe_setQueue {qs : List QueuedSetting} {s : State}
    (h : s.queue.length ≤ 32 ∧ (s.queue.Pairwise fun a b => ¬SameSlotInQueue a b) →
      qs.length ≤ 32 ∧ qs.Pairwise fun a b => ¬SameSlotInQueue a b) : Safe s { s with queue := qs } :=
  { Safe.refl s with
    queues := fun ⟨records, changes, settings⟩ => ⟨records, changes, h settings⟩ }

theorem safe_mergeSetting (l : Link) (i : Nat) (x : Setting) (s : State) : Safe s (mergeSetting l i x s) := by
  refine safe_setQueue fun ⟨bound, apart⟩ => ⟨by simpa [mergeQueued] using bound, ?_⟩
  have slot (q : QueuedSetting) :
      slotOf (if queuedFor i x q then { origin := l, unit := i, setting := x } else q) = slotOf q := by
    split_ifs with hq
    · exact ((queuedFor_iff ..).1 hq).symm
    · rfl
  rw [mergeQueued, List.pairwise_map]
  simp only [sameSlotInQueue_iff, slot] at apart ⊢
  exact apart

theorem safe_appendSetting {i : Nat} {x : Setting} {s : State} (new : s.queue.any (queuedFor i x) = false)
    (room : s.queue.length < 32) (l : Link) : Safe s (appendSetting l i x s) := by
  refine safe_setQueue fun ⟨_, apart⟩ => ⟨by simp only [List.length_append, List.length_singleton]; omega, ?_⟩
  refine List.pairwise_append.2 ⟨apart, List.pairwise_singleton .., fun a ha b hb => ?_⟩
  rw [List.mem_singleton.1 hb, sameSlotInQueue_iff]
  exact fun same => Bool.false_ne_true (new.symm.trans (List.any_eq_true.2 ⟨a, ha, (queuedFor_iff ..).2 same⟩))

theorem safe_takeSet (l : Link) (c : List Byte) (s : State) : Safe s (takeSet l c s).1 := by
  unfold takeSet
  cases settingOf (readU c 2 1) (readU c 3 2) with
  | none => exact .refl s
  | some x =>
    dsimp only [handleSetting]
    split_ifs with listed free full
    · exact safe_mergeSetting ..
    · exact (inner_applySetting ..).safe
    · exact .refl s
    · exact safe_appendSetting (by simpa using listed) (not_le.1 full) l

/-! ### MAP -/

theorem mapWithinLimit_mapWritten {c : List Byte} {m : UnitMap}
    (inRange : ¬(4096 < readU c 2 2 ∨ (0 < readU c 6 2 ∧ readU c 2 2 < readU c 4 2 + readU c 6 2))) :
    MapWithinLimit (mapWritten c m) := by
  refine ⟨by rw [mapWritten_limit]; omega, fun i hi => ?_⟩
  rw [mapWritten_limit] at hi
  rw [getLsbD_mapWritten inRange, if_neg (by omega)]
  simp [not_lt.2 hi]

/-- A written map shares no mark with the other map, none of whose marks stood in the span (R171, R173). -/
theorem mapWritten_apart {c : List Byte} {m o : UnitMap}
    (inRange : ¬(4096 < readU c 2 2 ∨ (0 < readU c 6 2 ∧ readU c 2 2 < readU c 4 2 + readU c 6 2)))
    (free : ¬(readBit c 1 1 = true ∧ ∃ k < readU c 6 2, permitted o (readU c 4 2 + k) = true))
    (within : MapWithinLimit o) (apart : ∀ i, ¬(m.marks.getLsbD i = true ∧ o.marks.getLsbD i = true)) (i : Nat) :
    ¬((mapWritten c m).marks.getLsbD i = true ∧ o.marks.getLsbD i = true) := by
  rintro ⟨written, other⟩
  rw [getLsbD_mapWritten inRange] at written
  split_ifs at written with inSpan
  · have below : i < o.limit := by
      by_contra above
      exact Bool.false_ne_true ((within.2 i (not_lt.1 above)).symm.trans other)
    refine free ⟨written, i - readU c 4 2, by omega, ?_⟩
    rw [Nat.add_sub_cancel' inSpan.1]
    simp [permitted, below, other]
  · simp only [Bool.and_eq_true] at written
    exact apart i ⟨written.2, other⟩

/-- A selected map is left as it is, or written by R173. -/
theorem mapSelected_cases {c : List Byte} {s : State} {l : Link} {m o : UnitMap} (hm : mapOf s l = some m)
    (ho : mapOf s (otherFleet l) = some o) :
    (mapSelected l c s).1 = s ∨
      ((mapSelected l c s).1 = setMap l (mapWritten c m) s ∧
        ¬(4096 < readU c 2 2 ∨ (0 < readU c 6 2 ∧ readU c 2 2 < readU c 4 2 + readU c 6 2)) ∧
        ¬(readBit c 1 1 = true ∧ ∃ k < readU c 6 2, permitted o (readU c 4 2 + k) = true)) := by
  by_cases query : readBit c 1 0 = true
  · exact .inl (congrArg Prod.fst (mapSelected_of_query hm query))
  have write : readBit c 1 0 = false := by simpa using query
  by_cases bad : 4096 < readU c 2 2 ∨ (0 < readU c 6 2 ∧ readU c 2 2 < readU c 4 2 + readU c 6 2)
  · exact .inl (congrArg Prod.fst (mapSelected_of_badRange write bad ..))
  rw [mapSelected_of_inRange hm ho write bad]
  by_cases overlap : readBit c 1 1 = true ∧ ∃ k < readU c 6 2, permitted o (readU c 4 2 + k) = true
  · exact .inl (by rw [if_pos overlap])
  · exact .inr ⟨by rw [if_neg overlap], bad, overlap⟩

theorem safe_setMap (l : Link) (m : UnitMap) (s : State)
    (maps : MapsDisjoint s → MapsDisjoint (setMap l m s)) : Safe s (setMap l m s) := by
  cases l <;> exact { Safe.refl s with maps := maps }

theorem safe_takeMap (l : Link) (c : List Byte) (s : State) : Safe s (takeMap l c s).1 := by
  have selected (k : Link) (hk : k = .fa ∨ k = .fb) : Safe s (mapSelected k c s).1 := by
    rcases hk with rfl | rfl
    · rcases mapSelected_cases (c := c) (s := s) (l := .fa) rfl rfl with e | ⟨e, inRange, free⟩ <;> rw [e]
      · exact .refl s
      · exact safe_setMap _ _ _ fun ⟨_, withinB, apart⟩ =>
          ⟨mapWithinLimit_mapWritten inRange, withinB, mapWritten_apart inRange free withinB apart⟩
    · rcases mapSelected_cases (c := c) (s := s) (l := .fb) rfl rfl with e | ⟨e, inRange, free⟩ <;> rw [e]
      · exact .refl s
      · exact safe_setMap _ _ _ fun ⟨withinA, _, apart⟩ => ⟨withinA, mapWithinLimit_mapWritten inRange, fun i both =>
          mapWritten_apart inRange free withinA (fun i both => apart i both.symm) i both.symm⟩
  unfold takeMap selectorOf
  split
  · exact .refl s
  · next k known =>
    refine selected k ?_
    split at known
    · exact .inl (Option.some.inj known).symm
    · exact .inr (Option.some.inj known).symm
    · cases known

/-! ### TIME and GATE -/

theorem safe_writeSecond {v : Nat} (h : v ≤ 899) (s : State) : Safe s (writeSecond v s) :=
  safe_setTime fun ⟨_, rest⟩ => ⟨h, rest⟩

theorem safe_takeTime (l : Link) (c : List Byte) (s : State) : Safe s (takeTime l c s).1 := by
  dsimp only [takeTime]
  split_ifs with change above unset far other
  · exact .refl s
  · exact .refl s
  · exact .refl s
  · refine .trans (safe_writeSecond (not_lt.1 above) s) (.trans (safe_setTime fun ⟨second, _, rest⟩ => ?_)
      (inner_raiseTlGl ..).safe)
    unfold Config.maxSetSlot at far
    exact ⟨second, by dsimp only; omega, rest⟩
  · exact .refl s
  · exact safe_writeSecond (not_lt.1 above) s

theorem safe_takeGate (l : Link) (c : List Byte) (s : State) : Safe s (takeGate l c s).1 := by
  dsimp only [takeGate]
  split_ifs with query above held
  · exact .refl s
  · exact .refl s
  · exact .refl s
  · exact safe_setTime fun ⟨second, slot, _⟩ => ⟨second, slot, by dsimp only; omega, not_lt.1 above⟩

/-! ### FEEDER and SETTINGS -/

theorem safe_setFeeder (g : Nat) (f : FeederLimits) (s : State) : Safe s (setFeeder g f s) :=
  { Safe.refl s with
    tables := fun ⟨units, feeders, rest⟩ => ⟨units, listed_tableSet feeders g f, rest⟩ }

theorem safe_feederLowered (g : Nat) (s : State) : Safe s (feederLowered g s) :=
  ((inner_markEntries ..).trans (inner_disturb ..)).safe

theorem safe_takeFeeder (l : Link) (c : List Byte) (s : State) : Safe s (takeFeeder l c s).1 := by
  dsimp only [takeFeeder, writeFeeder]
  split_ifs
  · exact .refl s
  · exact .refl s
  · exact (safe_setFeeder ..).trans (safe_feederLowered ..)
  · exact safe_setFeeder ..

theorem unitFits_underLimit (limit : Nat) {u : UnitRec} (h : UnitFits u) : UnitFits (underLimit limit u) := by
  unfold underLimit
  cases u.state <;> dsimp only
  case probing => split_ifs <;> exact h
  case ready => split_ifs <;> exact h
  case lost => split_ifs <;> exact h
  case empty => exact h
  case rejected => exact h

theorem safe_applyLostLimit {limit : Nat} (h : 2 ≤ limit ∧ limit ≤ 32) (s : State) :
    Safe s (applyLostLimit limit s) :=
  .trans (inner_mapUnits (fun _ _ => unitFits_underLimit limit) s).safe (.trans (t := { s with fleet := { s.fleet with
      lostLimit := limit, units := tableMap UnitRec.reset (fun _ u => underLimit limit u) s.fleet.units } })
    { Safe.refl { s with fleet := { s.fleet with units := tableMap UnitRec.reset (fun _ => underLimit limit) s.fleet.units } } with
      settings := fun ⟨_, rest⟩ => ⟨h, rest⟩ } (Inner.foldl (fun _ _ => inner_contributionLost ..) ..).safe)

/-- The fields of a SETTINGS request lie in their ranges, the holdback where its change flag is set (log 12). -/
def SettingsReqFits (r : SettingsReq) : Prop :=
  (r.change = true → r.holdback ≤ 200) ∧
  (r.minShare = 0 ∨ (r.minShare % 10 = 0 ∧ 10 ≤ r.minShare ∧ r.minShare ≤ 1000)) ∧
  (r.period = 0 ∨ (r.period % 50 = 0 ∧ 100 ≤ r.period ∧ r.period ≤ 1000)) ∧
  (r.timeout = 0 ∨ (10 ≤ r.timeout ∧ r.timeout ≤ 250)) ∧ r.lost ≠ 1 ∧ r.lost ≤ 32

theorem settingsOutOfRange_iff (r : SettingsReq) : settingsOutOfRange r = true ↔ ¬SettingsReqFits r := by
  have holdback : r.change = true ∧ 200 < r.holdback ↔ ¬(r.change = true → r.holdback ≤ 200) := by
    rw [Classical.not_imp, not_le]
  simp only [settingsOutOfRange, SettingsReqFits, Bool.or_eq_true, Bool.and_eq_true, decide_eq_true_eq, or_assoc]
  rw [Classical.not_and_iff_not_or_not, holdback]
  exact or_congr .rfl (by omega)

theorem safe_writeHoldback {r : SettingsReq} (h : SettingsReqFits r) (s : State) : Safe s (writeHoldback r s) :=
  { Safe.refl s with
    settings := fun ⟨lost, period, timeout, ⟨holdback, least, most, tens⟩, rest⟩ => by
      obtain ⟨newHoldback, newShare, -⟩ := h
      refine ⟨lost, period, timeout, ⟨?_, ?_⟩, rest⟩
      · dsimp only [writeHoldback]
        split_ifs with change
        · exact newHoldback change
        · exact holdback
      · dsimp only [writeHoldback, orKeep]
        split_ifs with keep
        · exact ⟨least, most, tens⟩
        · omega }

theorem safe_writePeriod {r : SettingsReq} (h : SettingsReqFits r) (s : State) : Safe s (writePeriod r s) :=
  { Safe.refl s with
    settings := fun ⟨lost, ⟨least, most, fifties⟩, ⟨leastWait, mostWait, spare⟩, rest⟩ => by
      obtain ⟨-, -, newPeriod, newTimeout, -⟩ := h
      have period : 100 ≤ orKeep r.period s.ctl.period ∧ orKeep r.period s.ctl.period ≤ 1000 ∧
          orKeep r.period s.ctl.period % 50 = 0 := by
        unfold orKeep
        split_ifs <;> omega
      have timeout : 10 ≤ orKeep r.timeout s.ctl.replyTimeout ∧ orKeep r.timeout s.ctl.replyTimeout ≤ 250 := by
        unfold orKeep
        split_ifs <;> omega
      exact ⟨lost, period, by dsimp only [writePeriod]; omega, rest⟩ }

theorem safe_takeSettings (l : Link) (c : List Byte) (s : State) : Safe s (takeSettings l c s).1 := by
  dsimp only [takeSettings]
  split_ifs with out held
  · exact .refl s
  · exact .refl s
  · rw [settingsOutOfRange_iff, not_not] at out
    have limit : (readSettings c).lost ≠ 0 → 2 ≤ (readSettings c).lost ∧ (readSettings c).lost ≤ 32 := by
      obtain ⟨-, -, -, -, notOne, most⟩ := out
      omega
    dsimp only [writeSettings]
    exact .trans (safe_writeHoldback out s) (.trans (safe_writePeriod out _)
      (.trans (.ite (fun _ => .refl _) fun given => safe_applyLostLimit (limit given) _) (safe_arbitrate _)))

/-! ### Every request, and every step -/

theorem safe_takeOf (q : Request) (l : Link) (c : List Byte) (s : State) : Safe s (takeOf q l c s).1 := by
  cases q with
  | quote => exact safe_takeQuote l c s
  | offer => exact safe_takeOffer l c s
  | award => exact safe_takeAward l c s
  | withdraw => exact safe_takeWithdraw l c s
  | discard => exact safe_takeDiscard l c s
  | list => exact (takeList_state l c s).symm ▸ Safe.refl s
  | entry => exact (takeEntry_state l c s).symm ▸ Safe.refl s
  | take => exact safe_takeTake l c s
  | margin => exact safe_takeMargin l c s
  | units => exact .refl s
  | feeders => exact .refl s
  | settings => exact safe_takeSettings l c s
  | map => exact safe_takeMap l c s
  | time => exact safe_takeTime l c s
  | gate => exact safe_takeGate l c s
  | feeder => exact safe_takeFeeder l c s
  | product => exact safe_takeProduct l c s
  | deadband => exact safe_takeDeadband l c s
  | activate => exact safe_takeActivate l c s
  | override => exact safe_takeOverride l c s
  | clear => exact safe_takeClear l c s
  | release => exact safe_takeRelease l c s
  | thresholds => exact safe_takeThresholds l c s
  | lockShort => exact safe_takeLockShort l c s
  | lineMode => exact safe_takeLineMode l c s
  | dispatch => exact .refl s
  | start => exact (inner_takeStart l c s).safe
  | stop => exact (inner_takeStop l c s).safe
  | engage => exact (inner_takeEngage l c s).safe
  | disengage => exact (inner_takeDisengage l c s).safe
  | set => exact safe_takeSet l c s
  | channels => exact { Safe.refl s with }

theorem safe_exec {i : Instr} {s t : State} (h : exec i s = .next t) (notReset : i ≠ .reset) : Safe s t :=
  kept_safe.exec events_safe safe_takeOf h notReset

/-! ### RESET -/

theorem exec_reset (s : State) : exec .reset s = .next (heldInReset s) := rfl

/-- A predicate that holds of the part held in reset, does not look at the queue of commands, and is kept by every
other command, is kept by every step. -/
theorem step_keeps {P : State → Prop} (reset : ∀ s, P (heldInReset s))
    (queue : ∀ s cs, P s → P { s with pending := cs })
    (others : ∀ i s t, exec i s = .next t → i ≠ .reset → P s → P t) {s t : State} (h : P s) (e : step s = .next t) :
    P t := by
  rcases step_cases e with rfl | ⟨i, rest, -, e⟩
  · exact h
  · by_cases isReset : i = .reset
    · subst isReset
      obtain rfl := Host.Outcome.next.inj ((exec_reset _).symm.trans e)
      exact reset _
    · exact others i _ t e isReset (queue s rest h)

theorem numbered_nil : Numbered [] := by simp [Numbered]

theorem tablesCanonical_heldInReset (s : State) : TablesCanonical (heldInReset s) := by
  simp [TablesCanonical, Listed, Ascending, heldInReset, State.reset]

theorem settingsInRange_heldInReset (s : State) : SettingsInRange (heldInReset s) := by
  refine ⟨by simp [heldInReset, State.reset], by simp [heldInReset, State.reset], by simp [heldInReset, State.reset],
    by simp [heldInReset, State.reset], fun p => ?_, by simp [heldInReset, State.reset],
    by simp [heldInReset, State.reset]⟩
  cases p <;> simp [EnduranceInRange, heldInReset, State.reset, enduranceOf]

theorem timeInRange_heldInReset (s : State) : TimeInRange (heldInReset s) := by
  simp [TimeInRange, heldInReset, State.reset]

theorem ownerLimits_heldInReset (s : State) : OwnerLimits (heldInReset s) := by
  simp [OwnerLimits, heldInReset, State.reset]

theorem queuesBounded_heldInReset (s : State) : QueuesBounded (heldInReset s) := by
  simp [QueuesBounded, heldInReset, State.reset]

theorem mapsDisjoint_heldInReset (s : State) : MapsDisjoint (heldInReset s) := by
  simp [MapsDisjoint, MapWithinLimit, heldInReset, State.reset, UnitMap.reset]

theorem marginConsistent_heldInReset (s : State) : MarginConsistent (heldInReset s) := by
  simp [MarginConsistent, heldInReset, State.reset, MarginDir.reset, worse, marginRank]

/-! ### The obligations -/

/-- Settles O54: by `Safe`, which every operation of every block keeps, and by the empty tables after RESET. -/
theorem everyStepKeepsTheTables : Obligations.EveryStepKeepsTheTables := fun _ _ h e =>
  step_keeps tablesCanonical_heldInReset (fun _ _ => id) (fun _ _ _ e notReset => (safe_exec e notReset).tables) h e

/-- Settles O55: by `Safe`, and by the reset values, each in its range. -/
theorem everyStepKeepsTheRanges : Obligations.EveryStepKeepsTheRanges := fun _ _ settings time owners e =>
  ⟨step_keeps settingsInRange_heldInReset (fun _ _ => id)
      (fun _ _ _ e notReset => (safe_exec e notReset).settings) settings e,
    step_keeps timeInRange_heldInReset (fun _ _ => id) (fun _ _ _ e notReset => (safe_exec e notReset).time) time e,
    step_keeps ownerLimits_heldInReset (fun _ _ => id)
      (fun _ _ _ e notReset => (safe_exec e notReset).owners) owners e⟩

/-- Settles O57: by `Safe`, whose one case with content is a MAP that writes a map. -/
theorem everyStepKeepsTheMapsApart : Obligations.EveryStepKeepsTheMapsApart := fun _ _ h e =>
  step_keeps mapsDisjoint_heldInReset (fun _ _ => id) (fun _ _ _ e notReset => (safe_exec e notReset).maps) h e

/-- Settles O60: by `Safe`, whose cases with content are a round's completion, a MARGIN read and a new line mode. -/
theorem everyStepKeepsTheMargin : Obligations.EveryStepKeepsTheMargin := fun _ _ h e =>
  step_keeps marginConsistent_heldInReset (fun _ _ => id)
    (fun _ _ _ e notReset => (safe_exec e notReset).margin) h e

end Sys2Proof.Machine

/-! PROOF. The slot boundary's transitions of the entries and freeing of records, and the Book under every other
operation: only the boundary, the completions, AWARD, WITHDRAW, DISCARD and RELEASE write entries (04; 06, R117,
R118). -/

namespace Sys2Proof.Machine

/-! ### One entry at the boundary -/

/-- An entry after the boundary into slot `t` under offset `g` (R71 to R73). -/
def entryAfter (t g : Nat) (e : Entry) : Entry :=
  match boundaryState t g e with
  | none => e
  | some st => inState st e

theorem entryAfter_eq (t g : Nat) (e : Entry) :
    entryAfter t g e =
      if e.first = t + g ∧ e.state = .offered then { e with state := .lapsed, uncovered := 0 }
      else if e.first = t + g ∧ e.state = .awarded then { e with state := .locked }
      else if e.first = t ∧ e.state = .locked then { e with state := .active }
      else if lastSlot e + 1 = t ∧ e.state = .active then { e with state := .ended, uncovered := 0 }
      else e := by
  unfold entryAfter boundaryState
  split_ifs <;> rfl

/-- An entry lapses at the boundary into slot `t` when it is still OFFERED at its gate closure (R71). -/
theorem boundaryState_eq_lapsed_iff (t g : Nat) (e : Entry) :
    boundaryState t g e = some .lapsed ↔ e.first = t + g ∧ e.state = .offered := by
  unfold boundaryState
  split_ifs with lapses <;> simp [lapses]

theorem boundaryEntry_of_none {t : Nat} {s : State} {p : Nat × Entry} (h : boundaryState t s.time.gate p.2 = none) :
    boundaryEntry t s p = s := by
  simp [boundaryEntry, h]

theorem boundaryEntry_of_some {t : Nat} {s : State} {p : Nat × Entry} {st : EntryState}
    (h : boundaryState t s.time.gate p.2 = some st) :
    boundaryEntry t s p = placeChange p.1 true
      (setShares (if st = .lapsed then s.shares.filter fun r => r.entry ≠ p.1 else s.shares)
        (setEntry p.1 (inState st p.2) s)) := by
  simp only [boundaryEntry, h]
  split_ifs <;> rfl

@[simp] theorem placeChange_time (n : Nat) (b : Bool) (s : State) : (placeChange n b s).time = s.time := by
  simp [placeChange]

@[simp] theorem placeChange_shares (n : Nat) (b : Bool) (s : State) : (placeChange n b s).shares = s.shares := by
  simp [placeChange]

@[simp] theorem placeChange_entries (n : Nat) (b : Bool) (s : State) :
    (placeChange n b s).book.entries = s.book.entries := by
  simp [placeChange, placeMember_entries]

@[simp] theorem setEntry_entries (n : Nat) (e : Entry) (s : State) :
    (setEntry n e s).book.entries = tableInsert s.book.entries n e := rfl

@[simp] theorem boundaryEntry_time (t : Nat) (s : State) (p : Nat × Entry) :
    (boundaryEntry t s p).time = s.time := by
  cases h : boundaryState t s.time.gate p.2 with
  | none => rw [boundaryEntry_of_none h]
  | some st => simp [boundaryEntry_of_some h]

/-- One entry's transition writes that entry alone. -/
theorem entryOf_boundaryEntry (t : Nat) {s : State} {p : Nat × Entry} (stands : entryOf s p.1 = some p.2) (n : Nat) :
    entryOf (boundaryEntry t s p) n = if n = p.1 then some (entryAfter t s.time.gate p.2) else entryOf s n := by
  unfold entryAfter
  cases h : boundaryState t s.time.gate p.2 with
  | none =>
    rw [boundaryEntry_of_none h]
    split_ifs with hn
    · rw [hn, stands]
    · rfl
  | some st =>
    rw [boundaryEntry_of_some h]
    simp only [entryOf, placeChange_entries, setShares, setEntry_entries, tableFind_tableInsert]

/-- One entry's transition frees its records when it lapses, and no others. -/
theorem mem_shares_boundaryEntry (t : Nat) (s : State) (p : Nat × Entry) (r : ShareRec) :
    r ∈ (boundaryEntry t s p).shares ↔
      r ∈ s.shares ∧ ¬(r.entry = p.1 ∧ boundaryState t s.time.gate p.2 = some .lapsed) := by
  cases h : boundaryState t s.time.gate p.2 with
  | none => simp [boundaryEntry_of_none h]
  | some st =>
    rw [boundaryEntry_of_some h, placeChange_shares]
    by_cases lapsed : st = .lapsed <;> simp [lapsed, setShares]

/-! ### The Book at the boundary -/

@[simp] theorem foldl_boundaryEntry_time (t : Nat) (l : List (Nat × Entry)) (s : State) :
    (l.foldl (boundaryEntry t) s).time = s.time := by
  induction l generalizing s with
  | nil => rfl
  | cons p l ih => rw [List.foldl_cons, ih, boundaryEntry_time]

@[simp] theorem bookBoundary_time (t : Nat) (s : State) : (bookBoundary t s).time = s.time :=
  foldl_boundaryEntry_time ..

/-- Entries listed once each take their transitions, each by its own state and slots. -/
theorem entryOf_foldl_boundaryEntry (t : Nat) {l : List (Nat × Entry)} (rising : Ascending l) (s : State)
    (stand : ∀ p ∈ l, entryOf s p.1 = some p.2) (n : Nat) :
    entryOf (l.foldl (boundaryEntry t) s) n =
      if n ∈ l.map Prod.fst then (entryOf s n).map (entryAfter t s.time.gate) else entryOf s n := by
  induction l generalizing s with
  | nil => rfl
  | cons p l ih =>
    have stands := stand p (List.mem_cons_self ..)
    obtain ⟨above, rising⟩ := ascending_cons.1 rising
    rw [List.foldl_cons, ih rising, entryOf_boundaryEntry t stands, boundaryEntry_time, List.map_cons]
    · by_cases hn : n = p.1
      · subst hn
        have notLater : p.1 ∉ l.map Prod.fst := fun h => by
          obtain ⟨q, hq, e⟩ := List.mem_map.1 h
          exact absurd (above q hq) (by omega)
        rw [if_neg notLater, if_pos rfl, if_pos (List.mem_cons_self ..), stands, Option.map_some]
      · simp only [hn, if_false, List.mem_cons, false_or]
    · intro q hq
      rw [entryOf_boundaryEntry t stands, if_neg (by have := above q hq; omega)]
      exact stand q (List.mem_cons_of_mem _ hq)

theorem entryOf_bookBoundary (t : Nat) {s : State} (rising : Ascending s.book.entries) (n : Nat) :
    entryOf (bookBoundary t s) n = (entryOf s n).map (entryAfter t s.time.gate) := by
  unfold bookBoundary
  rw [entryOf_foldl_boundaryEntry t rising s fun p hp => tableFind_of_mem rising hp]
  split_ifs with listed
  · rfl
  · cases h : entryOf s n with
    | none => rfl
    | some e => exact absurd (List.mem_map_of_mem (f := Prod.fst) (tableFind_mem h)) listed

theorem mem_shares_foldl_boundaryEntry (t : Nat) (l : List (Nat × Entry)) (s : State) (r : ShareRec) :
    r ∈ (l.foldl (boundaryEntry t) s).shares ↔
      r ∈ s.shares ∧ ¬∃ p ∈ l, r.entry = p.1 ∧ boundaryState t s.time.gate p.2 = some .lapsed := by
  induction l generalizing s with
  | nil => simp
  | cons p l ih =>
    rw [List.foldl_cons, ih, mem_shares_boundaryEntry, boundaryEntry_time]
    simp only [List.exists_mem_cons_iff, not_or, and_assoc]

theorem mem_shares_bookBoundary (t : Nat) {s : State} (rising : Ascending s.book.entries) (r : ShareRec) :
    r ∈ (bookBoundary t s).shares ↔
      r ∈ s.shares ∧ ¬∃ e, entryOf s r.entry = some e ∧ boundaryState t s.time.gate e = some .lapsed := by
  unfold bookBoundary
  rw [mem_shares_foldl_boundaryEntry]
  refine and_congr_right fun _ => not_congr ⟨?_, ?_⟩
  · rintro ⟨p, hp, e, lapses⟩
    exact ⟨p.2, e ▸ tableFind_of_mem rising hp, lapses⟩
  · rintro ⟨e, he, lapses⟩
    exact ⟨(r.entry, e), tableFind_mem he, rfl, lapses⟩

theorem ascending_boundaryEntry (t : Nat) {s : State} (rising : Ascending s.book.entries) (p : Nat × Entry) :
    Ascending (boundaryEntry t s p).book.entries := by
  cases h : boundaryState t s.time.gate p.2 with
  | none => rwa [boundaryEntry_of_none h]
  | some st =>
    rw [boundaryEntry_of_some h, placeChange_entries]
    exact ascending_tableInsert rising ..

theorem ascending_bookBoundary (t : Nat) {s : State} (rising : Ascending s.book.entries) :
    Ascending (bookBoundary t s).book.entries := by
  have fold (l : List (Nat × Entry)) (s : State) (rising : Ascending s.book.entries) :
      Ascending (l.foldl (boundaryEntry t) s).book.entries := by
    induction l generalizing s with
    | nil => exact rising
    | cons p l ih => exact ih _ (ascending_boundaryEntry t rising p)
  exact fold _ s rising

/-! ### The drain and the freeing around it -/

/-- Book and clock stay as they are. -/
def BookStill (s t : State) : Prop := t.book = s.book ∧ t.time = s.time

theorem Inner.bookStill {s t : State} (h : Inner s t) : BookStill s t := ⟨h.book, h.time⟩

theorem BookStill.entryOf {s t : State} (h : BookStill s t) (n : Nat) : entryOf t n = entryOf s n := by
  unfold Machine.entryOf
  rw [h.1]

theorem BookStill.trans {s t u : State} (h : BookStill s t) (g : BookStill t u) : BookStill s u :=
  ⟨g.1.trans h.1, g.2.trans h.2⟩

theorem bookStill_freeEnded (t : Nat) (s : State) : BookStill s (freeEnded t s) := ⟨rfl, rfl⟩

theorem inner_drainFold (s : State) : Inner s (s.queue.foldl drainOne s) := .foldl inner_drainOne ..

theorem bookStill_drainQueue (s : State) : BookStill s (drainQueue s) :=
  ⟨(inner_drainFold s).book, (inner_drainFold s).time⟩

@[simp] theorem drainQueue_shares (s : State) : (drainQueue s).shares = s.shares := (inner_drainFold s).shares

theorem mem_shares_freeEnded (t : Nat) (s : State) (r : ShareRec) :
    r ∈ (freeEnded t s).shares ↔ r ∈ s.shares ∧ r.last + 1 ≠ t := by
  simp [freeEnded, setShares]

/-- What the entries and the records are after the transitions, the freeing and the drain, in whatever order these
are taken (log 6). -/
structure BoundaryTaken (t : Nat) (s b : State) : Prop where
  time : b.time = s.time
  rising : Ascending b.book.entries
  entry : ∀ n, entryOf b n = (entryOf s n).map (entryAfter t s.time.gate)
  shares : ∀ r, r ∈ b.shares ↔ r ∈ s.shares ∧ r.last + 1 ≠ t ∧
    ¬∃ e, entryOf s r.entry = some e ∧ boundaryState t s.time.gate e = some .lapsed

/-- The boundary's transitions between operations that leave the Book still, of which one frees the ended records. -/
theorem boundaryTaken_of_parts {t : Nat} {s u b : State} (rising : Ascending s.book.entries) (before : BookStill s u)
    (after : BookStill (bookBoundary t u) b)
    (freed : ((∀ r, r ∈ u.shares ↔ r ∈ s.shares ∧ r.last + 1 ≠ t) ∧ b.shares = (bookBoundary t u).shares) ∨
      (u.shares = s.shares ∧ ∀ r, r ∈ b.shares ↔ r ∈ (bookBoundary t u).shares ∧ r.last + 1 ≠ t)) :
    BoundaryTaken t s b := by
  have risingU : Ascending u.book.entries := before.1 ▸ rising
  refine ⟨by rw [after.2, bookBoundary_time, before.2], after.1 ▸ ascending_bookBoundary t risingU, fun n => ?_,
    fun r => ?_⟩
  · rw [after.entryOf, entryOf_bookBoundary t risingU, before.entryOf, before.2]
  · have lapsed := mem_shares_bookBoundary t risingU r
    rw [before.entryOf, before.2] at lapsed
    rcases freed with ⟨freed, kept⟩ | ⟨kept, freed⟩
    · rw [kept, lapsed, freed, and_assoc]
    · rw [freed, lapsed, kept]
      tauto

theorem time_boundaryTables (t : Nat) (s : State) : (boundaryTables t s).time = s.time := by
  have drained (u : State) : (drainQueue u).time = u.time := (bookStill_drainQueue u).2
  have freed (u : State) : (freeEnded t u).time = u.time := rfl
  unfold boundaryTables
  split_ifs
  · rw [freed, bookBoundary_time]
  · rcases Config.drainOrder s.freeTick with ⟨_ | _, _ | _⟩ <;>
      simp only [drained, freed, bookBoundary_time]

theorem boundaryTaken_boundaryTables (t : Nat) {s : State} (rising : Ascending s.book.entries) :
    BoundaryTaken t s (boundaryTables t s) := by
  have still (u : State) : BookStill u u := ⟨rfl, rfl⟩
  unfold boundaryTables
  split_ifs
  · exact boundaryTaken_of_parts rising (still s) (bookStill_freeEnded ..) (.inr ⟨rfl, fun _ => mem_shares_freeEnded ..⟩)
  · rcases Config.drainOrder s.freeTick with ⟨_ | _, _ | _⟩
    · exact boundaryTaken_of_parts rising (still s) ((bookStill_freeEnded ..).trans (bookStill_drainQueue _))
        (.inr ⟨rfl, fun r => by rw [drainQueue_shares, mem_shares_freeEnded]⟩)
    · exact boundaryTaken_of_parts rising (still s) ((bookStill_drainQueue _).trans (bookStill_freeEnded ..))
        (.inr ⟨rfl, fun r => by rw [mem_shares_freeEnded, drainQueue_shares]⟩)
    · exact boundaryTaken_of_parts rising ((bookStill_freeEnded ..).trans (bookStill_drainQueue _)) (still _)
        (.inl ⟨fun r => by rw [drainQueue_shares, mem_shares_freeEnded], rfl⟩)
    · exact boundaryTaken_of_parts rising (bookStill_drainQueue _) (bookStill_freeEnded ..)
        (.inr ⟨drainQueue_shares _, fun _ => mem_shares_freeEnded ..⟩)

theorem noteBoundary_eq (s : State) :
    noteBoundary s = { s with eval := { s.eval with
      job := s.eval.job.map fun j => { j with boundaryTaken := true } } } := by
  rcases s with ⟨_, _, _, _, ⟨job, _⟩, _⟩
  cases job <;> rfl

theorem noteBoundary_shares (s : State) : (noteBoundary s).shares = s.shares := by rw [noteBoundary_eq]

theorem bookStill_noteBoundary (s : State) : BookStill s (noteBoundary s) := by
  rw [noteBoundary_eq]
  exact ⟨rfl, rfl⟩

/-- The state in which the boundary's tables are written: the job has learnt of it and the accounts are closed. -/
def boundaryClosed (s : State) : State := closeAccumulators s.time.slot (noteBoundary s)

theorem slotBoundary_eq (s : State) :
    slotBoundary s =
      { openAccumulators s.time.slot (boundaryTables s.time.slot (boundaryClosed s)) with
        freeTick := (openAccumulators s.time.slot (boundaryTables s.time.slot (boundaryClosed s))).freeTick + 1 } :=
  rfl

theorem bookStill_boundaryClosed (s : State) : BookStill s (boundaryClosed s) :=
  (bookStill_noteBoundary s).trans (inner_closeAccumulators ..).bookStill

theorem boundaryClosed_shares (s : State) : (boundaryClosed s).shares = s.shares :=
  (inner_closeAccumulators ..).shares.trans (noteBoundary_shares s)

theorem time_slotBoundary (s : State) : (slotBoundary s).time = s.time :=
  (inner_openAccumulators ..).time.trans ((time_boundaryTables ..).trans (bookStill_boundaryClosed s).2)

theorem boundaryTaken_slotBoundary {s : State} (rising : Ascending s.book.entries) :
    BoundaryTaken s.time.slot s (slotBoundary s) := by
  have closed := bookStill_boundaryClosed s
  have risingClosed : Ascending (boundaryClosed s).book.entries := closed.1 ▸ rising
  obtain ⟨time, risingTables, entry, shares⟩ := boundaryTaken_boundaryTables s.time.slot risingClosed
  have opened := inner_openAccumulators s.time.slot (boundaryTables s.time.slot (boundaryClosed s))
  refine ⟨opened.time.trans (time.trans closed.2), opened.book ▸ risingTables, fun n => ?_, fun r => ?_⟩
  · have e := (opened.bookStill.entryOf n).trans (entry n)
    rwa [closed.entryOf, closed.2] at e
  · have e := shares r
    rw [← opened.shares, boundaryClosed_shares, closed.entryOf, closed.2] at e
    exact e

/-- Settles O8: by the transition of each entry, listed once, and the records that lapses and the freeing leave. -/
theorem boundaryMovesEntries : Obligations.BoundaryMovesEntries := by
  intro s ⟨_, _, _, rising, _⟩
  obtain ⟨-, -, entry, shares⟩ := boundaryTaken_slotBoundary rising
  refine ⟨fun n e he => ?_, fun n he => ?_, fun r => ?_⟩
  · rw [entry, he, Option.map_some, entryAfter_eq]
  · rw [entry, he, Option.map_none]
  · rw [shares]
    simp only [boundaryState_eq_lapsed_iff, and_comm (a := _ = s.time.slot + _)]

/-! ### Awarded quantities -/

/-- An awarded quantity, when present, is at most the offered one (R63). -/
def AwardFits (e : Entry) : Prop := ∀ a, e.awarded = some a → a ≤ e.offered

theorem awardsWithinOffers_iff (s : State) : AwardsWithinOffers s ↔ ∀ p ∈ s.book.entries, AwardFits p.2 := .rfl

theorem awardsWithinOffers_of_entries {s t : State} (h : t.book.entries = s.book.entries)
    (fits : AwardsWithinOffers s) : AwardsWithinOffers t := by
  unfold AwardsWithinOffers
  rwa [h]

theorem awardFits_of_entryOf {s : State} (h : AwardsWithinOffers s) {n : Nat} {e : Entry} (he : entryOf s n = some e) :
    AwardFits e :=
  h (n, e) (tableFind_mem he)

theorem awardsWithinOffers_insert {s t : State} {n : Nat} {e : Entry} (h : AwardsWithinOffers s) (fits : AwardFits e)
    (written : t.book.entries = tableInsert s.book.entries n e) : AwardsWithinOffers t := by
  intro p hp
  rw [written] at hp
  rcases mem_tableInsert hp with rfl | hp
  · exact fits
  · exact h p hp

theorem awardsWithinOffers_boundaryEntry (t : Nat) {s : State} {p : Nat × Entry} (h : AwardsWithinOffers s)
    (fits : AwardFits p.2) : AwardsWithinOffers (boundaryEntry t s p) := by
  cases e : boundaryState t s.time.gate p.2 with
  | none => rwa [boundaryEntry_of_none e]
  | some st =>
    rw [boundaryEntry_of_some e]
    exact awardsWithinOffers_insert (n := p.1) (e := inState st p.2) h fits (by simp [setShares])

theorem awardsWithinOffers_bookBoundary (t : Nat) {s : State} (h : AwardsWithinOffers s) :
    AwardsWithinOffers (bookBoundary t s) := by
  have fold (l : List (Nat × Entry)) (s : State) (h : AwardsWithinOffers s) (fits : ∀ p ∈ l, AwardFits p.2) :
      AwardsWithinOffers (l.foldl (boundaryEntry t) s) := by
    induction l generalizing s with
    | nil => exact h
    | cons p l ih =>
      exact ih _ (awardsWithinOffers_boundaryEntry t h (fits p (List.mem_cons_self ..)))
        fun q hq => fits q (List.mem_cons_of_mem _ hq)
  exact fold _ s h h

theorem awardsWithinOffers_boundaryTables (t : Nat) {s : State} (h : AwardsWithinOffers s) :
    AwardsWithinOffers (boundaryTables t s) := by
  have drained {s : State} (h : AwardsWithinOffers s) : AwardsWithinOffers (drainQueue s) :=
    awardsWithinOffers_of_entries (congrArg Book.entries (bookStill_drainQueue s).1) h
  unfold boundaryTables
  split_ifs
  · exact awardsWithinOffers_bookBoundary t h
  · rcases Config.drainOrder s.freeTick with ⟨_ | _, _ | _⟩
    · exact drained (s := freeEnded t (bookBoundary t s)) (awardsWithinOffers_bookBoundary t h)
    · exact drained (awardsWithinOffers_bookBoundary t h)
    · exact awardsWithinOffers_bookBoundary t (drained (s := freeEnded t s) h)
    · exact awardsWithinOffers_bookBoundary t (drained h)

theorem awardsWithinOffers_slotBoundary {s : State} (h : AwardsWithinOffers s) :
    AwardsWithinOffers (slotBoundary s) := by
  have closed := awardsWithinOffers_of_entries (congrArg Book.entries (bookStill_boundaryClosed s).1) h
  have opened := inner_openAccumulators s.time.slot (boundaryTables s.time.slot (boundaryClosed s))
  exact awardsWithinOffers_of_entries (congrArg Book.entries opened.book :)
    (awardsWithinOffers_boundaryTables s.time.slot closed)

end Sys2Proof.Machine

/-! PROOF. The Book's entries outside the slot boundary: every other operation leaves them as they are, but for the
completions, AWARD, WITHDRAW, DISCARD and RELEASE, of which RELEASE alone touches a LOCKED or ACTIVE sale (04). -/

namespace Sys2Proof.Machine

/-! ### Operations that write no entry -/

theorem foldl_inner_entries {α : Type} {f : State → α → State} (h : ∀ s a, Inner s (f s a)) (l : List α) (s : State) :
    (l.foldl f s).book.entries = s.book.entries :=
  congrArg Book.entries (Inner.foldl h l s).book

/-- A relation that holds wherever the entries stay as they are is kept by what every step does. -/
theorem kept_of_entries {R : State → State → Prop} (trans : ∀ {s t u}, R s t → R t u → R s u)
    (same : ∀ {s t : State}, t.book.entries = s.book.entries → R s t) : Kept R where
  refl := fun _ => same rfl
  trans := trans
  setLink := fun l r s => same (by simp)
  emptyChanges := fun _ => same rfl
  kickLine := fun s c => same (congrArg Book.entries (inner_kickLine s c).book)
  arbitrate := fun s => same (by simp)

/-- The requests that can write an entry. -/
def writesEntries : Request → Bool
  | .award => true
  | .withdraw => true
  | .discard => true
  | .release => true
  | _ => false

theorem entries_setProduct (p : Product) (v : Nat) (s : State) :
    (setProduct p v s).1.book.entries = s.book.entries := by
  unfold setProduct
  split_ifs <;> rfl

theorem entries_takeProduct (l : Link) (c : List Byte) (s : State) :
    (takeProduct l c s).1.book.entries = s.book.entries := by
  unfold takeProduct
  cases productOf (readU c 0 1) with
  | none => rfl
  | some p => exact entries_setProduct ..

/-- An OFFER or a QUOTE changes at most the TL job slot. -/
theorem takeOffer_state (l : Link) (c : List Byte) (s : State) :
    (takeOffer l c s).1 = s ∨ ∃ r, (takeOffer l c s).1 = placeTl r s := by
  unfold takeOffer
  split_ifs
  · exact .inl rfl
  · cases productOf (readU c 4 1) with
    | none => exact .inl rfl
    | some p =>
      dsimp only
      cases offerRefusal s (readU c 0 4) (readU c 5 4) (readU c 9 1) (readU c 10 2) with
      | some code => exact .inl rfl
      | none => exact .inr ⟨_, rfl⟩

theorem takeQuote_state (l : Link) (c : List Byte) (s : State) :
    (takeQuote l c s).1 = s ∨ ∃ r, (takeQuote l c s).1 = placeTl r s := by
  unfold takeQuote
  by_cases unset : s.time.timeSet = false
  · rw [if_pos unset]
    exact .inl rfl
  · rw [if_neg unset]
    cases productOf (readU c 0 1) with
    | none => exact .inl rfl
    | some p =>
      dsimp only
      split_ifs
      · exact .inl rfl
      · exact .inr ⟨_, rfl⟩

theorem entries_takeActivate (l : Link) (c : List Byte) (s : State) :
    (takeActivate l c s).1.book.entries = s.book.entries := by
  have stored (keep : Bool) (p r : Nat) : (storeRequested keep p r s).book = s.book := by
    unfold storeRequested
    split_ifs <;> rfl
  dsimp only [takeActivate]
  split_ifs
  · rfl
  · rw [← stored]
    dsimp only [endSilence]
    split_ifs
    · exact congrArg Book.entries (inner_raiseTlGl ..).book
    · rfl

theorem entries_takeOverride (l : Link) (c : List Byte) (s : State) :
    (takeOverride l c s).1.book.entries = s.book.entries := by
  unfold takeOverride
  cases overrideOf (readU c 0 1) with
  | none => rfl
  | some o =>
    dsimp only
    split_ifs
    · rfl
    · have raised := (inner_raiseOverride { s with disp := { s.disp with override := o } }).book
      dsimp only [putOverride]
      split_ifs
      · exact (foldl_inner_entries inner_haltChannel ..).trans (congrArg Book.entries raised)
      · exact congrArg Book.entries raised

theorem entries_takeClear (l : Link) (c : List Byte) (s : State) :
    (takeClear l c s).1.book.entries = s.book.entries := by
  unfold takeClear
  split_ifs
  · rfl
  · exact congrArg Book.entries (inner_raiseOverride _).book

theorem entries_takeSet (l : Link) (c : List Byte) (s : State) :
    (takeSet l c s).1.book.entries = s.book.entries := by
  unfold takeSet
  cases settingOf (readU c 2 1) (readU c 3 2) with
  | none => rfl
  | some x =>
    dsimp only [handleSetting]
    split_ifs
    · rfl
    · exact congrArg Book.entries (inner_applySetting ..).book
    · rfl
    · rfl

theorem entries_takeMap (l : Link) (c : List Byte) (s : State) :
    (takeMap l c s).1.book.entries = s.book.entries := by
  have written (k : Link) (m : UnitMap) : (setMap k m s).book = s.book := by cases k <;> rfl
  unfold takeMap
  cases selectorOf (readU c 0 1) with
  | none => rfl
  | some k =>
    dsimp only [mapSelected]
    split_ifs
    · rfl
    · rfl
    · rfl
    · rfl
    · rw [written]

theorem entries_takeTime (l : Link) (c : List Byte) (s : State) :
    (takeTime l c s).1.book.entries = s.book.entries := by
  dsimp only [takeTime]
  split_ifs
  · rfl
  · rfl
  · rfl
  · exact congrArg Book.entries (inner_raiseTlGl ..).book
  · rfl
  · rfl

theorem entries_takeFeeder (l : Link) (c : List Byte) (s : State) :
    (takeFeeder l c s).1.book.entries = s.book.entries := by
  dsimp only [takeFeeder, writeFeeder]
  split_ifs
  · rfl
  · rfl
  · exact congrArg Book.entries ((inner_markEntries ..).trans (inner_disturb ..)).book
  · rfl

theorem entries_takeSettings (l : Link) (c : List Byte) (s : State) :
    (takeSettings l c s).1.book.entries = s.book.entries := by
  dsimp only [takeSettings, writeSettings]
  split_ifs
  · rfl
  · rfl
  · simp [writePeriod, writeHoldback]
  · rw [arbitrate_book, applyLostLimit]
    exact foldl_inner_entries (fun _ _ => inner_contributionLost ..) ..

theorem entries_takeOf {q : Request} (h : writesEntries q = false) (l : Link) (c : List Byte) (s : State) :
    (takeOf q l c s).1.book.entries = s.book.entries := by
  cases q with
  | award => cases h
  | withdraw => cases h
  | discard => cases h
  | release => cases h
  | quote => rcases takeQuote_state l c s with e | ⟨r, e⟩ <;> simp [takeOf, e]
  | offer => rcases takeOffer_state l c s with e | ⟨r, e⟩ <;> simp [takeOf, e]
  | list => exact congrArg (fun s => s.book.entries) (takeList_state l c s)
  | entry => exact congrArg (fun s => s.book.entries) (takeEntry_state l c s)
  | take => dsimp only [takeOf, takeTake]; cases s.track.queue <;> rfl
  | margin => rfl
  | units => rfl
  | feeders => rfl
  | settings => exact entries_takeSettings l c s
  | map => exact entries_takeMap l c s
  | time => exact entries_takeTime l c s
  | gate => dsimp only [takeOf, takeGate]; split_ifs <;> rfl
  | feeder => exact entries_takeFeeder l c s
  | product => exact entries_takeProduct l c s
  | deadband => dsimp only [takeOf, takeDeadband]; split_ifs <;> rfl
  | activate => exact entries_takeActivate l c s
  | override => exact entries_takeOverride l c s
  | clear => exact entries_takeClear l c s
  | thresholds => dsimp only [takeOf, takeThresholds]; split_ifs <;> rfl
  | lockShort => rfl
  | lineMode => dsimp only [takeOf, takeLineMode]; split <;> rfl
  | dispatch => rfl
  | start => exact congrArg Book.entries (inner_takeStart l c s).book
  | stop => exact congrArg Book.entries (inner_takeStop l c s).book
  | engage => exact congrArg Book.entries (inner_takeEngage l c s).book
  | disengage => exact congrArg Book.entries (inner_takeDisengage l c s).book
  | set => exact entries_takeSet l c s
  | channels => rfl

theorem entries_takeExchangeTimer (s : State) : (takeExchangeTimer s).book.entries = s.book.entries := by
  dsimp only [takeExchangeTimer]
  split_ifs
  · rfl
  · exact congrArg Book.entries (inner_beginRound _).book
  · rfl

theorem entries_sampleByte (s : State) (b : Byte) : (sampleByte s b).book.entries = s.book.entries := by
  dsimp only [sampleByte]
  cases (receiveSampleByte s.disp.receiver b).2 with
  | none => rfl
  | some d =>
    dsimp only [takeSample]
    split_ifs
    · exact congrArg Book.entries (inner_raiseTlGl ..).book
    · rfl
    · rfl

theorem entries_takeFrequencyWatch (s : State) : (takeFrequencyWatch s).book.entries = s.book.entries := by
  unfold takeFrequencyWatch
  split_ifs
  · exact congrArg Book.entries (inner_raiseTlGl ..).book
  · rfl

theorem entries_takeSilence (s : State) : (takeSilence s).book.entries = s.book.entries := by
  unfold takeSilence
  split_ifs
  · exact congrArg Book.entries (inner_raiseTlGl ..).book
  · rfl

/-- What the clock and the jobs do to the entries decides what the events that are no request do to them. -/
theorem events_of_entries {R : State → State → Prop} (same : ∀ {s t : State}, t.book.entries = s.book.entries → R s t)
    (mark : ∀ s, R s (takeTimeMark s)) (watch : ∀ s, R s (takeMarkWatch s))
    (second : ∀ s, R s (takeHoldoverSecond s)) (replan : ∀ s, R s (takeReplanComplete s))
    (tl : ∀ s, R s (takeTlComplete s)) : EventsKept R where
  startTimers := fun _ => same rfl
  takeTimeMark := mark
  takeMarkWatch := watch
  takeHoldoverSecond := second
  endChannelSending := fun c s => same (congrArg Book.entries (inner_endChannelSending c s).book)
  takeAnswer := fun c chars s => same (congrArg Book.entries (inner_takeAnswer c chars s).book)
  takeReplyWait := fun c s => same (congrArg Book.entries (inner_takeReplyWait c s).book)
  takeExchangeTimer := fun s => same (entries_takeExchangeTimer s)
  sampleByte := fun s b => same (entries_sampleByte s b)
  dropSampleBytes := fun _ => same rfl
  takeFrequencyWatch := fun s => same (entries_takeFrequencyWatch s)
  takeSilence := fun s => same (entries_takeSilence s)
  takeReplanComplete := replan
  takeTlComplete := tl

/-! ### Operations that write one entry -/

theorem findEntry_ok {s : State} {n ref : Nat} {e : Entry} (h : findEntry s n ref = .ok e) :
    n ≤ 1023 ∧ entryOf s n = some e ∧ e.ref = ref := by
  unfold findEntry at h
  split_ifs at h with above
  cases found : entryOf s n with
  | none => simp [found] at h
  | some x =>
    simp only [found] at h
    split_ifs at h with same
    obtain rfl := Except.ok.inj h
    exact ⟨not_lt.1 above, rfl, same⟩

@[simp] theorem noteAward_book (n : Nat) (s : State) : (noteAward n s).book = s.book := by
  unfold noteAward
  cases s.eval.job with
  | none => rfl
  | some j =>
    dsimp only
    cases j.kind with
    | replan m e => dsimp only; split_ifs <;> rfl
    | quote q => rfl
    | offer o => rfl

@[simp] theorem endEntry_entries (n : Nat) (e : Entry) (st : EntryState) (s : State) :
    (endEntry n e st s).book.entries = tableInsert s.book.entries n (inState st e) := rfl

@[simp] theorem awardEntry_entries (n awarded : Nat) (e : Entry) (s : State) :
    (awardEntry n awarded e s).book.entries = tableInsert s.book.entries n (awardedEntry s n awarded e) := by
  simp [awardEntry, setShares, setEntry]

/-- AWARD leaves the entries as they are, or writes the OFFERED entry it names, withdrawn or awarded (R63, R64). -/
theorem takeAward_entries (l : Link) (c : List Byte) (s : State) :
    (takeAward l c s).1.book.entries = s.book.entries ∨
      ∃ n e e', entryOf s n = some e ∧ e.state = .offered ∧
        (takeAward l c s).1.book.entries = tableInsert s.book.entries n e' ∧ (AwardFits e → AwardFits e') := by
  unfold takeAward
  split_ifs
  · exact .inl rfl
  · cases found : findEntry s (readU c 0 2) (readU c 2 4) with
    | error code => exact .inl rfl
    | ok e =>
      obtain ⟨-, he, -⟩ := findEntry_ok found
      dsimp only [awardFound]
      split_ifs with lapsed offered zero
      · exact .inl rfl
      · exact .inl rfl
      · exact .inr ⟨_, e, _, he, not_not.1 offered, endEntry_entries .., id⟩
      · refine .inr ⟨_, e, _, he, not_not.1 offered, awardEntry_entries .., fun _ a ha => ?_⟩
        obtain rfl := Option.some.inj ha
        exact min_le_right ..

/-- WITHDRAW leaves the entries as they are, or withdraws the entry it names, before its gate closure (R66). -/
theorem takeWithdraw_entries (l : Link) (c : List Byte) (s : State) :
    (takeWithdraw l c s).1.book.entries = s.book.entries ∨
      ∃ n e, entryOf s n = some e ∧ (e.state = .offered ∨ e.state = .awarded) ∧
        (takeWithdraw l c s).1.book.entries = tableInsert s.book.entries n (inState .withdrawn e) := by
  unfold takeWithdraw
  cases found : findEntry s (readU c 0 2) (readU c 2 4) with
  | error code => exact .inl rfl
  | ok e =>
    obtain ⟨-, he, -⟩ := findEntry_ok found
    dsimp only [withdrawFound]
    split_ifs with before standing
    · exact .inr ⟨_, e, he, by simpa [beforeGate] using before, endEntry_entries ..⟩
    · exact .inl rfl
    · exact .inl rfl

/-- DISCARD leaves the entries as they are, or frees the number of a terminal entry (R68). -/
theorem takeDiscard_entries (l : Link) (c : List Byte) (s : State) :
    (takeDiscard l c s).1.book.entries = s.book.entries ∨
      ∃ n e, entryOf s n = some e ∧ nonTerminal e.state = false ∧
        (takeDiscard l c s).1.book.entries = tableErase s.book.entries n := by
  unfold takeDiscard
  cases found : findEntry s (readU c 0 2) (readU c 2 4) with
  | error code => exact .inl rfl
  | ok e =>
    obtain ⟨-, he, -⟩ := findEntry_ok found
    dsimp only [discardFound]
    split_ifs with standing owed
    · exact .inl rfl
    · exact .inl rfl
    · exact .inr ⟨_, e, he, by simpa using standing, rfl⟩

/-- RELEASE leaves the entries as they are, or releases the entry it names (R69). -/
theorem takeRelease_entries (l : Link) (c : List Byte) (s : State) :
    (takeRelease l c s).1.book.entries = s.book.entries ∨
      ∃ n e, entryOf s n = some e ∧
        (takeRelease l c s).1.book.entries = tableInsert s.book.entries n (inState .released e) := by
  unfold takeRelease
  cases found : findEntry s (readU c 0 2) (readU c 2 4) with
  | error code => exact .inl rfl
  | ok e =>
    obtain ⟨-, he, -⟩ := findEntry_ok found
    dsimp only [releaseFound]
    split_ifs
    · refine .inr ⟨_, e, he, ?_⟩
      dsimp only [releaseEntry]
      rw [placeChange_entries, endEntry_entries]
      split_ifs
      · rw [(inner_emitReleased ..).book]
      · rfl
    · exact .inl rfl

@[simp] theorem answerTl_book (code : AnswerCode) (result : List Byte) (s : State) :
    (answerTl code result s).book = s.book := by
  unfold answerTl
  cases (linkOf s .tl).inProcess <;> simp

@[simp] theorem advanceStart_book (p : Plan) (s : State) : (advanceStart p s).book = s.book := by
  unfold advanceStart
  cases p.lastUnit <;> rfl

@[simp] theorem admitOffer_entries (j : Job) (o : OfferReq) (number booked : Nat) (s : State) :
    (admitOffer j o number booked s).book.entries =
      tableInsert s.book.entries number (offeredEntry o booked) := by
  dsimp only [admitOffer]
  split_ifs <;> simp [setShares]

theorem entryOf_lowestFreeEntry {s : State} {n : Nat} (h : lowestFreeEntry s = some n) : entryOf s n = none := by
  simpa using List.find?_some h

/-- A TL job's completion leaves the entries as they are, or adds the OFFERED entry of a free number (R62). -/
theorem takeTlComplete_entries (s : State) :
    (takeTlComplete s).book.entries = s.book.entries ∨
      ∃ n o booked, entryOf s n = none ∧
        (takeTlComplete s).book.entries = tableInsert s.book.entries n (offeredEntry o booked) := by
  unfold takeTlComplete
  cases s.eval.job with
  | none => exact .inl rfl
  | some j =>
    dsimp only
    cases j.kind with
    | quote q => exact .inl (by simp [dropJob])
    | replan n e => exact .inl rfl
    | offer o =>
      dsimp only [dropJob, completeOffer]
      cases offerOutcome j o with
      | error code => exact .inl (by simp)
      | ok booked =>
        dsimp only [bookOffer]
        split_ifs
        · exact .inl (by simp)
        · cases free : lowestFreeEntry s with
          | none => exact .inl (by simp)
          | some n => exact .inr ⟨n, o, booked, entryOf_lowestFreeEntry free, by simp⟩

theorem writeReplan_entries (j : Job) (number : Nat) (e now : Entry) (s : State) :
    (writeReplan j number e now s).book.entries = s.book.entries ∨
      ∃ w, (writeReplan j number e now s).book.entries =
        tableInsert s.book.entries number { now with uncovered := w } := by
  dsimp only [writeReplan]
  split_ifs
  · exact .inl rfl
  · exact .inr ⟨_, by simp; rfl⟩
  · exact .inr ⟨_, by simp [setShares]; rfl⟩

@[simp] theorem advanceStart_time (p : Plan) (s : State) : (advanceStart p s).time = s.time := by
  unfold advanceStart
  cases p.lastUnit <;> rfl

theorem writeReplan_time (j : Job) (number : Nat) (e now : Entry) (s : State) :
    (writeReplan j number e now s).time = s.time := by
  dsimp only [writeReplan]
  split_ifs <;> simp [setShares]

theorem takeReplanComplete_time (s : State) : (takeReplanComplete s).time = s.time := by
  unfold takeReplanComplete
  cases s.eval.job with
  | none => rfl
  | some j =>
    dsimp only
    cases j.kind with
    | quote q => rfl
    | offer o => rfl
    | replan n e =>
      dsimp only [dropJob, completeReplan]
      cases entryOf s n with
      | none => rfl
      | some now =>
        dsimp only
        split_ifs
        · rfl
        · rfl
        · exact writeReplan_time ..
        · exact writeReplan_time ..

/-- A replan's completion leaves the entries as they are, or writes its entry's uncovered W (R115). -/
theorem takeReplanComplete_entries (s : State) :
    (takeReplanComplete s).book.entries = s.book.entries ∨
      ∃ n now w, entryOf s n = some now ∧
        (takeReplanComplete s).book.entries = tableInsert s.book.entries n { now with uncovered := w } := by
  unfold takeReplanComplete
  cases s.eval.job with
  | none => exact .inl rfl
  | some j =>
    dsimp only
    cases j.kind with
    | quote q => exact .inl rfl
    | offer o => exact .inl rfl
    | replan n e =>
      dsimp only [dropJob, completeReplan]
      cases found : entryOf s n with
      | none => exact .inl rfl
      | some now =>
        have written := writeReplan_entries j n e now s
        dsimp only
        split_ifs
        · exact .inl rfl
        · exact .inl rfl
        · exact written.imp id fun ⟨w, h⟩ => ⟨n, now, w, found, h⟩
        · exact written.imp id fun ⟨w, h⟩ => ⟨n, now, w, found, h⟩

/-! ### Awards within offers -/

/-- Awarded quantities stay within the offered ones. -/
def AwardsKept (s t : State) : Prop := AwardsWithinOffers s → AwardsWithinOffers t

theorem awardsKept_of_entries {s t : State} (h : t.book.entries = s.book.entries) : AwardsKept s t :=
  awardsWithinOffers_of_entries h

theorem kept_awards : Kept AwardsKept :=
  kept_of_entries (fun h g => g ∘ h) awardsKept_of_entries

theorem awardsKept_secondStep (s : State) : AwardsKept s (secondStep s) := by
  intro h
  unfold secondStep
  split_ifs
  · exact h
  · exact h
  · exact h
  · exact awardsWithinOffers_slotBoundary (s := { s with time := _ }) h

theorem awardsKept_takeTimeMark (s : State) : AwardsKept s (takeTimeMark s) := by
  unfold takeTimeMark
  split_ifs
  · exact awardsKept_of_entries (congrArg Book.entries (inner_raiseTlGl ..).book :)
  · exact awardsKept_secondStep s

theorem awardsKept_takeMarkWatch (s : State) : AwardsKept s (takeMarkWatch s) := by
  unfold takeMarkWatch
  split_ifs
  · dsimp only [enterHoldover]
    exact fun h => awardsKept_of_entries (congrArg Book.entries (inner_raiseTlGl ..).book :)
      (awardsKept_secondStep _ (awardsKept_secondStep { s with time := _ } h))
  · exact id

theorem awardsKept_takeHoldoverSecond (s : State) : AwardsKept s (takeHoldoverSecond s) := by
  unfold takeHoldoverSecond
  split_ifs
  · exact awardsKept_secondStep s
  · exact id

theorem awardsKept_takeReplanComplete (s : State) : AwardsKept s (takeReplanComplete s) := by
  rcases takeReplanComplete_entries s with e | ⟨n, now, w, found, e⟩
  · exact awardsKept_of_entries e
  · exact fun h => awardsWithinOffers_insert h (e := { now with uncovered := w }) (awardFits_of_entryOf (e := now) h found) e

theorem awardsKept_takeTlComplete (s : State) : AwardsKept s (takeTlComplete s) := by
  rcases takeTlComplete_entries s with e | ⟨n, o, booked, -, e⟩
  · exact awardsKept_of_entries e
  · exact fun h => awardsWithinOffers_insert h (fun a ha => by cases ha) e

theorem awardsKept_takeOf (q : Request) (l : Link) (c : List Byte) (s : State) :
    AwardsKept s (takeOf q l c s).1 := by
  by_cases quiet : writesEntries q = false
  · exact awardsKept_of_entries (entries_takeOf quiet l c s)
  · cases q with
    | award =>
      rcases takeAward_entries l c s with e | ⟨n, x, y, found, -, e, fits⟩
      · exact awardsKept_of_entries e
      · exact fun h => awardsWithinOffers_insert h (fits (awardFits_of_entryOf h found)) e
    | withdraw =>
      rcases takeWithdraw_entries l c s with e | ⟨n, x, found, -, e⟩
      · exact awardsKept_of_entries e
      · exact fun h => awardsWithinOffers_insert h (e := inState .withdrawn x) (awardFits_of_entryOf (e := x) h found) e
    | discard =>
      rcases takeDiscard_entries l c s with e | ⟨n, x, -, -, e⟩
      · exact awardsKept_of_entries e
      · intro h p hp
        have hp : p ∈ (takeDiscard l c s).1.book.entries := hp
        exact h p (mem_tableErase (e ▸ hp))
    | release =>
      rcases takeRelease_entries l c s with e | ⟨n, x, found, e⟩
      · exact awardsKept_of_entries e
      · exact fun h => awardsWithinOffers_insert h (e := inState .released x) (awardFits_of_entryOf (e := x) h found) e
    | _ => exact absurd rfl quiet

theorem events_awards : EventsKept AwardsKept :=
  events_of_entries awardsKept_of_entries awardsKept_takeTimeMark awardsKept_takeMarkWatch
    awardsKept_takeHoldoverSecond awardsKept_takeReplanComplete awardsKept_takeTlComplete

theorem awardsWithinOffers_heldInReset (s : State) : AwardsWithinOffers (heldInReset s) := by
  simp [AwardsWithinOffers, heldInReset, State.reset]

/-- Settles O56: awards by the operations that write entries, the queues and the records' numbers by `Safe`. -/
theorem everyStepKeepsTheBounds : Obligations.EveryStepKeepsTheBounds := fun _ _ awards queues shares e =>
  ⟨step_keeps awardsWithinOffers_heldInReset (fun _ _ => id)
      (fun _ _ _ e notReset => kept_awards.exec events_awards awardsKept_takeOf e notReset) awards e,
    step_keeps queuesBounded_heldInReset (fun _ _ => id)
      (fun _ _ _ e notReset => (safe_exec e notReset).queues) queues e,
    step_keeps (P := SharesNumbered) (fun _ => numbered_nil) (fun _ _ => id)
      (fun _ _ _ e notReset => (safe_exec e notReset).shares) shares e⟩

/-! ### Sales past their gate -/

/-- An entry past its gate closure, whose sale is still to be kept. -/
def Closed (e : Entry) : Prop := e.state = .locked ∨ e.state = .active

/-- A sale that stands in slot `t`: LOCKED, ACTIVE, or ENDED after its last slot. -/
def Standing (t : Nat) (e : Entry) : Prop :=
  e.state = .locked ∨ e.state = .active ∨ (e.state = .ended ∧ lastSlot e < t)

/-- Two forms of one entry that differ at most in its state and its uncovered W. -/
def SameSale (e e' : Entry) : Prop := { e' with state := e.state, uncovered := e.uncovered } = e

/-- Every LOCKED or ACTIVE entry is left as it is. -/
def ClosedKept (s t : State) : Prop :=
  Ascending s.book.entries → Ascending t.book.entries ∧
    ∀ n e, entryOf s n = some e → Closed e → entryOf t n = some e

/-- Every sale that stands goes on standing, and slots do not run back. -/
def SalesRun (s t : State) : Prop :=
  s.time.slot ≤ t.time.slot ∧ (Ascending s.book.entries → Ascending t.book.entries ∧
    ∀ n e, entryOf s n = some e → Standing s.time.slot e →
      ∃ e', entryOf t n = some e' ∧ SameSale e e' ∧ Standing t.time.slot e')

theorem SameSale.refl (e : Entry) : SameSale e e := rfl

theorem SameSale.trans {e f g : Entry} (h : SameSale e f) (k : SameSale f g) : SameSale e g := by
  unfold SameSale at *
  rw [← h, ← k]

theorem closedKept_of_entries {s t : State} (h : t.book.entries = s.book.entries) : ClosedKept s t := by
  unfold ClosedKept entryOf
  rw [h]
  exact fun rising => ⟨rising, fun _ _ found _ => found⟩

theorem ClosedKept.trans {s t u : State} (h : ClosedKept s t) (g : ClosedKept t u) : ClosedKept s u := by
  intro rising
  obtain ⟨risingT, keptT⟩ := h rising
  obtain ⟨risingU, keptU⟩ := g risingT
  exact ⟨risingU, fun n e found closed => keptU n e (keptT n e found closed) closed⟩

theorem kept_closed : Kept ClosedKept := kept_of_entries ClosedKept.trans closedKept_of_entries

/-- Writing an entry number that holds no LOCKED or ACTIVE entry. -/
theorem closedKept_insert {s t : State} {n : Nat} {e : Entry} (open_ : ∀ x, entryOf s n = some x → ¬Closed x)
    (written : t.book.entries = tableInsert s.book.entries n e) : ClosedKept s t := by
  intro rising
  refine ⟨written ▸ ascending_tableInsert rising n e, fun m x found closed => ?_⟩
  have other : m ≠ n := by
    rintro rfl
    exact open_ x found closed
  unfold entryOf
  rw [written, tableFind_tableInsert, if_neg other]
  exact found

theorem closedKept_takeOf {q : Request} (h : q ≠ .release) (l : Link) (c : List Byte) (s : State) :
    ClosedKept s (takeOf q l c s).1 := by
  by_cases quiet : writesEntries q = false
  · exact closedKept_of_entries (entries_takeOf quiet l c s)
  · cases q with
    | release => exact absurd rfl h
    | award =>
      rcases takeAward_entries l c s with e | ⟨n, x, y, found, offered, e, -⟩
      · exact closedKept_of_entries e
      · refine closedKept_insert (fun z hz => ?_) e
        obtain rfl := Option.some.inj (found.symm.trans hz)
        simp [Closed, offered]
    | withdraw =>
      rcases takeWithdraw_entries l c s with e | ⟨n, x, found, before, e⟩
      · exact closedKept_of_entries e
      · refine closedKept_insert (fun z hz => ?_) e
        obtain rfl := Option.some.inj (found.symm.trans hz)
        rcases before with b | b <;> simp [Closed, b]
    | discard =>
      rcases takeDiscard_entries l c s with e | ⟨n, x, found, terminal, e⟩
      · exact closedKept_of_entries e
      · intro rising
        have e : (takeOf .discard l c s).1.book.entries = tableErase s.book.entries n := e
        refine ⟨e ▸ ascending_tableErase rising n, fun m y hy closed => ?_⟩
        have other : m ≠ n := by
          rintro rfl
          obtain rfl := Option.some.inj (found.symm.trans hy)
          rcases closed with b | b <;> simp [b, nonTerminal] at terminal
        unfold entryOf
        rw [e, tableFind_tableErase rising, if_neg other]
        exact hy
    | _ => exact absurd rfl quiet

theorem closedKept_takeTlComplete (s : State) : ClosedKept s (takeTlComplete s) := by
  rcases takeTlComplete_entries s with e | ⟨n, o, booked, free, e⟩
  · exact closedKept_of_entries e
  · exact closedKept_insert (fun x hx => absurd (free.symm.trans hx) (by simp)) e

theorem salesRun_of_entries {s t : State} (h : t.book.entries = s.book.entries) (slot : t.time.slot = s.time.slot) :
    SalesRun s t := by
  refine ⟨slot.ge, fun rising => ⟨h ▸ rising, fun n e found standing => ?_⟩⟩
  exact ⟨e, by unfold entryOf; rw [h]; exact found, .refl e, slot ▸ standing⟩

theorem SalesRun.trans {s t u : State} (h : SalesRun s t) (g : SalesRun t u) : SalesRun s u := by
  obtain ⟨slotT, h⟩ := h
  obtain ⟨slotU, g⟩ := g
  refine ⟨slotT.trans slotU, fun rising => ?_⟩
  obtain ⟨risingT, runT⟩ := h rising
  obtain ⟨risingU, runU⟩ := g risingT
  refine ⟨risingU, fun n e found standing => ?_⟩
  obtain ⟨f, foundT, saleT, standingT⟩ := runT n e found standing
  obtain ⟨g, foundU, saleU, standingU⟩ := runU n f foundT standingT
  exact ⟨g, foundU, saleT.trans saleU, standingU⟩

theorem sameSale_entryAfter (t g : Nat) (e : Entry) : SameSale e (entryAfter t g e) := by
  rw [entryAfter_eq]
  split_ifs <;> rfl

/-- A sale that stood in the slot before stands on in the slot that the boundary enters (R72, R73). -/
theorem standing_entryAfter {t u : Nat} (g : Nat) {e : Entry} (h : Standing t e) (later : t ≤ u) :
    Standing u (entryAfter u g e) := by
  rw [entryAfter_eq]
  rcases h with locked | active | ⟨ended, past⟩
  · simp only [locked, reduceCtorEq, and_false, if_false, and_true]
    split_ifs
    · exact .inr (.inl rfl)
    · exact .inl locked
  · simp only [active, reduceCtorEq, and_false, if_false, and_true]
    split_ifs with last
    · exact .inr (.inr ⟨rfl, by simp only [lastSlot] at last ⊢; omega⟩)
    · exact .inr (.inl active)
  · simp only [ended, reduceCtorEq, and_false, if_false]
    exact .inr (.inr ⟨ended, past.trans_le later⟩)

/-- The boundary into a later slot leaves every sale standing that stood before. -/
theorem salesRun_slotBoundary {s b : State} (entries : b.book.entries = s.book.entries)
    (later : s.time.slot ≤ b.time.slot) : SalesRun s (slotBoundary b) := by
  have taken (rising : Ascending s.book.entries) := boundaryTaken_slotBoundary (s := b) (entries ▸ rising)
  have slot : (slotBoundary b).time.slot = b.time.slot := by
    rw [time_slotBoundary]
  refine ⟨slot ▸ later, fun rising => ⟨(taken rising).rising, fun n e found standing => ?_⟩⟩
  refine ⟨entryAfter b.time.slot b.time.gate e, ?_, sameSale_entryAfter .., ?_⟩
  · rw [(taken rising).entry, show entryOf b n = some e by unfold entryOf; rw [entries]; exact found, Option.map_some]
  · rw [slot]
    exact standing_entryAfter _ standing later

theorem salesRun_secondStep (s : State) : SalesRun s (secondStep s) := by
  unfold secondStep
  split_ifs
  · exact salesRun_of_entries rfl rfl
  · exact salesRun_of_entries rfl rfl
  · exact salesRun_of_entries rfl rfl
  · exact salesRun_slotBoundary rfl (Nat.le_succ s.time.slot)

theorem salesRun_setTime {b : TimeBase} {s : State} (slot : b.slot = s.time.slot := by rfl) : SalesRun s { s with time := b } :=
  salesRun_of_entries rfl slot

theorem salesRun_raiseTlGl (k : NoticeKind) (s : State) : SalesRun s (raiseTlGl k s) :=
  salesRun_of_entries (congrArg Book.entries (inner_raiseTlGl k s).book)
    (congrArg TimeBase.slot (inner_raiseTlGl k s).time)

theorem salesRun_takeTimeMark (s : State) : SalesRun s (takeTimeMark s) := by
  dsimp only [takeTimeMark]
  split_ifs
  · exact .trans salesRun_setTime (salesRun_raiseTlGl .timeMark _)
  · exact .trans (salesRun_secondStep s) salesRun_setTime

theorem salesRun_enterHoldover (s : State) : SalesRun s (enterHoldover s) := by
  dsimp only [enterHoldover]
  exact .trans salesRun_setTime (.trans (salesRun_secondStep _) (.trans (salesRun_secondStep _)
    (.trans salesRun_setTime (salesRun_raiseTlGl .timeMark _))))

theorem salesRun_takeMarkWatch (s : State) : SalesRun s (takeMarkWatch s) := by
  unfold takeMarkWatch
  split_ifs
  · exact salesRun_enterHoldover s
  · exact salesRun_of_entries rfl rfl

theorem salesRun_takeHoldoverSecond (s : State) : SalesRun s (takeHoldoverSecond s) := by
  dsimp only [takeHoldoverSecond]
  split_ifs
  · exact .trans (salesRun_secondStep s) salesRun_setTime
  · exact salesRun_of_entries rfl rfl

theorem salesRun_takeReplanComplete (s : State) : SalesRun s (takeReplanComplete s) := by
  have time : (takeReplanComplete s).time = s.time := takeReplanComplete_time s
  rcases takeReplanComplete_entries s with e | ⟨n, now, w, found, e⟩
  · exact salesRun_of_entries e (congrArg TimeBase.slot time)
  · refine ⟨by rw [time], fun rising => ⟨e ▸ ascending_tableInsert rising .., fun m x hx standing => ?_⟩⟩
    rw [time]
    unfold entryOf
    rw [e, tableFind_tableInsert]
    split_ifs with same
    · subst same
      obtain rfl := Option.some.inj (found.symm.trans hx)
      exact ⟨_, rfl, rfl, standing⟩
    · exact ⟨x, hx, .refl x, standing⟩

/-! ### Sales under a command -/

/-- The end of a step leaves the entries and the clock as they are. -/
theorem SalesRun.settled {s t : State} (h : SalesRun s t) (b : Bool) : SalesRun s (settleWith b t) :=
  h.trans (salesRun_of_entries (by simp) (by simp))

theorem salesRun_effect {f : State → State} {s t : State} (h : SalesRun s (f s)) (e : effect f s = .next t) :
    SalesRun s t := by
  unfold effect at e
  split_ifs at e <;> obtain rfl := Host.Outcome.next.inj e
  · exact salesRun_of_entries rfl rfl
  · exact h.settled false

theorem salesRun_markWatchExpiry {s t : State} (e : exec .markWatchExpiry s = .next t) : SalesRun s t := by
  have e : execMarkWatchExpiry s = .next t := e
  unfold execMarkWatchExpiry at e
  split_ifs at e <;> obtain rfl := Host.Outcome.next.inj e
  · exact salesRun_of_entries rfl rfl
  · exact (salesRun_takeMarkWatch s).settled _

/-- Settles O30: a command of the clock or a replan's completion lets every sale run on, and any other leaves the
closed entries as they are. -/
theorem closedEntriesEndOnlyByRelease : Obligations.ClosedEntriesEndOnlyByRelease := by
  intro i s t n e ⟨_, _, _, rising, _⟩ found closed ex notReset notRelease notBusy notUnknown notDiscarded
  have runs (run : SalesRun s t) : ∃ e', entryOf t n = some e' ∧
      { e' with state := e.state, uncovered := e.uncovered } = e ∧
      (e'.state = .locked ∨ e'.state = .active ∨ (e'.state = .ended ∧ lastSlot e < t.time.slot)) := by
    have standing : Standing s.time.slot e := closed.imp id .inl
    obtain ⟨e', found', sale, standing'⟩ := (run.2 rising).2 n e found standing
    refine ⟨e', found', sale, standing'.imp id (.imp id fun ⟨ended, past⟩ => ⟨ended, ?_⟩)⟩
    rw [← sale]
    exact past
  have kept (k : ClosedKept s t) : ∃ e', entryOf t n = some e' ∧
      { e' with state := e.state, uncovered := e.uncovered } = e ∧
      (e'.state = .locked ∨ e'.state = .active ∨ (e'.state = .ended ∧ lastSlot e < t.time.slot)) :=
    ⟨e, (k rising).2 n e found closed, rfl, closed.imp id .inl⟩
  have still {f : State → State} (entries : (f s).book.entries = s.book.entries) (ef : effect f s = .next t) :
      ClosedKept s t := kept_closed.effect (closedKept_of_entries entries) ef
  rcases command_cases i with ⟨q, l, tag, c, rfl⟩ | other
  · have notQ : q ≠ .release := by
      rintro rfl
      exact notRelease l tag c rfl
    rw [exec_commandOf] at ex
    exact kept (kept_closed.effect (kept_closed.receiveCommand (fun l s => closedKept_takeOf notQ l c s) l tag s) ex)
  · cases other with
    | reset => exact absurd rfl notReset
    | releaseOfReset =>
      obtain rfl := Host.Outcome.next.inj ex
      refine kept (closedKept_of_entries ?_)
      split_ifs <;> rfl
    | timeMark => exact runs (salesRun_effect (salesRun_takeTimeMark s) ex)
    | markWatchExpiry => exact runs (salesRun_markWatchExpiry ex)
    | holdoverSecondTimerExpiry => exact runs (salesRun_effect (salesRun_takeHoldoverSecond s) ex)
    | busy l code tag c => exact absurd rfl (notBusy l code tag c)
    | unknownRequestCode l code tag c => exact absurd rfl (notUnknown l code tag c)
    | discardedFrame l chars => exact absurd rfl (notDiscarded l chars)
    | intercharacterTimeout l => exact kept (kept_closed.effect (kept_closed.setReceiver l .hunting s) ex)
    | frameSent l => exact kept (kept_closed.effect (kept_closed.endSending l s) ex)
    | channelFrameSent ch => exact kept (still (congrArg Book.entries (inner_endChannelSending ch s).book) ex)
    | channelAnswer ch chars => exact kept (still (congrArg Book.entries (inner_takeAnswer ch chars s).book) ex)
    | replyWaitExpiry ch => exact kept (still (congrArg Book.entries (inner_takeReplyWait ch s).book) ex)
    | strayChannelFrame ch chars => exact kept (still (f := discardStray ch chars) rfl ex)
    | exchangeTimerExpiry => exact kept (still (entries_takeExchangeTimer s) ex)
    | frequencySample bytes =>
      exact kept (kept_closed.effect (f := fun s => bytes.foldl sampleByte s)
        (kept_closed.foldl (fun s b => closedKept_of_entries (entries_sampleByte s b)) bytes s) ex)
    | sampleByteTimeout => exact kept (still (f := dropSampleBytes) rfl ex)
    | frequencyWatchExpiry => exact kept (still (entries_takeFrequencyWatch s) ex)
    | silenceTimerExpiry => exact kept (still (entries_takeSilence s) ex)
    | replanComplete => exact runs (salesRun_effect (salesRun_takeReplanComplete s) ex)
    | tlJobComplete => exact kept (kept_closed.effect (closedKept_takeTlComplete s) ex)

end Sys2Proof.Machine

/-! PROOF. What the operations outside the Fleet Channel Controller leave as it is: of the links all but pending
notices, the TL request that waits or runs, the channels and the round with its roll and held accounts (`Aside`). -/

namespace Sys2Proof.Machine

/-! ### The relation -/

/-- On the links nothing but pending notices differs; the unit maps may. -/
def LinksQuiet (s t : State) : Prop := ∀ l, linkOf t l = { linkOf s l with notices := (linkOf t l).notices }

/-- What the operations outside the controller leave as it is. -/
structure Aside (s t : State) : Prop where
  links : LinksQuiet s t
  work : tlWork t.eval = tlWork s.eval
  channels : t.ctl.channels = s.ctl.channels
  round : t.ctl.round = s.ctl.round
  roll : t.track.roll = s.track.roll
  held : t.track.held = s.track.held

theorem LinksQuiet.trans {s t u : State} (h : LinksQuiet s t) (g : LinksQuiet t u) : LinksQuiet s u := fun l => by
  rw [g l, h l]

theorem NoticesOnly.quiet {s t : State} (h : NoticesOnly s t) : LinksQuiet s t := h.2.2

/-- The TL work reads the TL job slot and the kind of the running job. -/
theorem tlWork_congr {d e : Evaluator} (slot : e.slot = d.slot) (kind : e.job.map Job.kind = d.job.map Job.kind) :
    tlWork e = tlWork d := by
  unfold tlWork
  rw [slot]
  congr 1
  cases hd : d.job with
  | none =>
    rw [hd, Option.map_none, Option.map_eq_none_iff] at kind
    rw [kind]
  | some i =>
    rw [hd, Option.map_some, Option.map_eq_some_iff] at kind
    obtain ⟨j, he, same⟩ := kind
    rw [he]
    dsimp only
    rw [same]

theorem MarksOnly.work {s t : State} (h : MarksOnly s t) : tlWork t.eval = tlWork s.eval := by
  obtain ⟨eval, job⟩ := h
  refine tlWork_congr (by rw [eval]) ?_
  have kinds := congrArg (Option.map Job.kind) job
  rwa [Option.map_map, Option.map_map] at kinds

namespace Aside

theorem refl (s : State) : Aside s s := ⟨fun _ => rfl, rfl, rfl, rfl, rfl, rfl⟩

theorem trans {s t u : State} (h : Aside s t) (g : Aside t u) : Aside s u where
  links := h.links.trans g.links
  work := g.work.trans h.work
  channels := g.channels.trans h.channels
  round := g.round.trans h.round
  roll := g.roll.trans h.roll
  held := g.held.trans h.held

theorem ite {c : Prop} [Decidable c] {s t u : State} (h : c → Aside s t) (g : ¬c → Aside s u) :
    Aside s (if c then t else u) := by
  split_ifs with hc
  · exact h hc
  · exact g hc

theorem foldl {α : Type} {f : State → α → State} (h : ∀ s a, Aside s (f s a)) (l : List α) (s : State) :
    Aside s (l.foldl f s) := by
  induction l generalizing s with
  | nil => exact refl s
  | cons a l ih => exact (h s a).trans (ih (f s a))

end Aside

/-! ### Notices, marks and units -/

theorem aside_raiseOn (l : Link) (k : NoticeKind) (s : State) : Aside s (raiseOn l k s) := by
  have notices := (noticesOnly_raiseOn l k s).quiet
  rw [raiseOn_eq_setLinks] at notices ⊢
  exact { Aside.refl s with links := notices }

theorem aside_raiseTlGl (k : NoticeKind) (s : State) : Aside s (raiseTlGl k s) :=
  (aside_raiseOn ..).trans (aside_raiseOn ..)

theorem aside_raiseOverride (s : State) : Aside s (raiseOverride s) :=
  (aside_raiseTlGl ..).trans ((aside_raiseOn ..).trans (aside_raiseOn ..))

theorem aside_markEntries (es : List Nat) (s : State) : Aside s (markEntries es s) := { Aside.refl s with }

theorem aside_disturb (p : Nat → Bool) (s : State) : Aside s (disturb p s) := by
  have marks := (marksOnly_disturb p s).work
  rw [disturb_eq] at marks ⊢
  exact { Aside.refl s with work := marks }

theorem aside_contributionLost (i : Nat) (s : State) : Aside s (contributionLost i s) :=
  (aside_markEntries ..).trans (aside_disturb ..)

theorem aside_contributionGained (s : State) : Aside s (contributionGained s) := aside_markEntries ..

theorem aside_applySetting (i : Nat) (x : Setting) (s : State) : Aside s (applySetting i x s) :=
  have applied (u : UnitRec) : Aside s (disturb (fun k => k == i) (setUnit i u s)) :=
    .trans (t := setUnit i u s) (by exact { Aside.refl s with }) (aside_disturb ..)
  .ite (fun _ => (applied _).trans (aside_contributionLost ..)) fun _ =>
    .ite (fun _ => (applied _).trans (aside_contributionGained _)) fun _ => applied _

theorem aside_applyLostLimit (limit : Nat) (s : State) : Aside s (applyLostLimit limit s) := by
  dsimp only [applyLostLimit]
  exact .trans (t := { s with fleet := _ }) (by exact { Aside.refl s with })
    (.foldl (fun _ _ => aside_contributionLost ..) ..)

/-! ### Delivery records -/

theorem aside_appendRecord (r : DeliveryRecord) (s : State) : Aside s (appendRecord r s) := by
  dsimp only [appendRecord]
  exact .ite (fun _ => .trans (t := { s with track := _ }) (by exact { Aside.refl s with }) (aside_raiseOn ..))
    fun _ => { Aside.refl s with }

theorem aside_emitRecord (n : Nat) (a : Accumulator) (b : Bool) (s : State) : Aside s (emitRecord n a b s) := by
  unfold emitRecord
  cases entryOf s n with
  | none => exact .refl s
  | some e => exact aside_appendRecord ..

theorem aside_emitReleased (n : Nat) (s : State) : Aside s (emitReleased n s) := by
  unfold emitReleased
  cases tableFind s.track.current n with
  | none => exact .refl s
  | some a => exact .trans (t := { s with track := _ }) (by exact { Aside.refl s with }) (aside_emitRecord ..)

/-! ### The Book and the Evaluator -/

theorem aside_placeChange (n : Nat) (b : Bool) (s : State) : Aside s (placeChange n b s) :=
  .trans (t := { s with book := _ }) (by exact { Aside.refl s with }) (aside_raiseOn ..)

theorem aside_endEntry (n : Nat) (e : Entry) (st : EntryState) (s : State) : Aside s (endEntry n e st s) := { Aside.refl s with }

theorem aside_noteAward (n : Nat) (s : State) : Aside s (noteAward n s) := by
  unfold noteAward
  cases job : s.eval.job with
  | none => exact .refl s
  | some j =>
    dsimp only
    cases kind : j.kind with
    | quote q => exact .refl s
    | offer o => exact .refl s
    | replan m e => exact .ite (fun _ => { Aside.refl s with work := tlWork_congr rfl (by simp [job, kind]) }) fun _ => .refl s

theorem aside_advanceStart (p : Plan) (s : State) : Aside s (advanceStart p s) := by
  unfold advanceStart
  cases p.lastUnit with
  | none => exact .refl s
  | some i => exact { Aside.refl s with }

theorem aside_writeReplan (j : Job) (number : Nat) (e now : Entry) (s : State) :
    Aside s (writeReplan j number e now s) := by
  dsimp only [writeReplan]
  refine .ite (fun _ => .refl s) fun _ => ?_
  exact .trans (t := setEntry _ _ (setShares _ s)) (by exact { Aside.refl s with })
    (.trans (.ite (fun _ => aside_placeChange ..) fun _ => .refl _) (aside_advanceStart ..))

theorem aside_completeReplan (j : Job) (number : Nat) (e : Entry) (s : State) :
    Aside s (completeReplan j number e s) := by
  unfold completeReplan
  cases entryOf s number with
  | none => exact .refl s
  | some now =>
    exact .ite (fun _ => .refl s) fun _ => .ite (fun _ => aside_markEntries ..) fun _ =>
      .trans (aside_writeReplan ..) (.ite (fun _ => aside_markEntries ..) fun _ => .refl _)

theorem aside_admitOffer (j : Job) (o : OfferReq) (number booked : Nat) (s : State) :
    Aside s (admitOffer j o number booked s) := by
  dsimp only [admitOffer]
  exact .trans (t := setShares _ (setEntry _ _ s)) { Aside.refl s with }
    (.trans (aside_advanceStart ..) (.ite (fun _ => aside_markEntries ..) fun _ => .refl _))

/-- A grant takes a TL request from the slot to the job, or leaves it in the slot (R84). -/
theorem work_grantTl {s : State} {r : TlRequest} (free : s.eval.job = none) (waits : s.eval.slot = some r) :
    tlWork (grantTl r s).eval = tlWork s.eval := by
  cases r <;> simp [grantTl, grant, tlWork, free, waits]

theorem work_grantReplan {s : State} (free : s.eval.job = none) (n : Nat) (e : Entry) :
    tlWork (grant (.replan n e) s).eval = tlWork s.eval := by
  have waiting : tlWork s.eval = if s.eval.slot.isSome then 1 else 0 := by simp [tlWork, free]
  exact waiting.symm

theorem tlTurn_slot {s : State} {r : TlRequest} (h : tlTurn s = some r) : s.eval.slot = some r := by
  unfold tlTurn at h
  cases slot : s.eval.slot with
  | none => simp [slot] at h
  | some x =>
    simp only [slot] at h
    split_ifs at h
    exact h

theorem work_arbiterLoop (fuel : Nat) {s : State} (free : s.eval.job = none) :
    tlWork (arbiterLoop fuel s).eval = tlWork s.eval := by
  induction fuel generalizing s with
  | zero => rfl
  | succ fuel ih =>
    unfold arbiterLoop
    cases turn : tlTurn s with
    | some r => exact work_grantTl free (tlTurn_slot turn)
    | none =>
      dsimp only
      cases s.eval.replans with
      | nil => rfl
      | cons n rest =>
        have taken : tlWork (takeFlag rest s).eval = tlWork s.eval := rfl
        dsimp only
        cases replanEntry (takeFlag rest s) n with
        | some e => exact (work_grantReplan (s := takeFlag rest s) free n e).trans taken
        | none => exact (ih (s := takeFlag rest s) free).trans taken

theorem work_arbitrate (s : State) : tlWork (arbitrate s).eval = tlWork s.eval := by
  unfold arbitrate
  cases free : s.eval.job with
  | some j => rfl
  | none => exact work_arbiterLoop _ free

theorem aside_arbitrate (s : State) : Aside s (arbitrate s) where
  links := fun l => by cases l <;> simp [linkOf]
  work := work_arbitrate s
  channels := by simp
  round := by simp
  roll := by simp
  held := by simp

/-! ### The clock beside the closing of accounts -/

theorem aside_drainOne (s : State) (q : QueuedSetting) : Aside s (drainOne s q) :=
  .ite (fun _ => .ite (fun _ => (aside_applySetting ..).trans (aside_markEntries ..)) fun _ => aside_applySetting ..)
    fun _ => .refl s

theorem aside_drainQueue (s : State) : Aside s (drainQueue s) :=
  .trans (Aside.foldl aside_drainOne s.queue s) { Aside.refl (s.queue.foldl drainOne s) with }

theorem aside_boundaryEntry (t : Nat) (s : State) (p : Nat × Entry) : Aside s (boundaryEntry t s p) := by
  cases h : boundaryState t s.time.gate p.2 with
  | none =>
    rw [boundaryEntry_of_none h]
    exact .refl s
  | some st =>
    rw [boundaryEntry_of_some h]
    exact .trans (t := setShares _ (setEntry _ _ s)) (by exact { Aside.refl s with }) (aside_placeChange ..)

theorem aside_bookBoundary (t : Nat) (s : State) : Aside s (bookBoundary t s) := .foldl (aside_boundaryEntry t) ..

theorem aside_freeEnded (t : Nat) (s : State) : Aside s (freeEnded t s) := { Aside.refl s with }

theorem aside_boundaryTables (t : Nat) (s : State) : Aside s (boundaryTables t s) := by
  unfold boundaryTables
  refine .ite (fun _ => (aside_bookBoundary ..).trans (aside_freeEnded ..)) fun _ => ?_
  rcases Config.drainOrder s.freeTick with ⟨_ | _, _ | _⟩
  · exact (aside_bookBoundary ..).trans ((aside_freeEnded ..).trans (aside_drainQueue _))
  · exact (aside_bookBoundary ..).trans ((aside_drainQueue _).trans (aside_freeEnded ..))
  · exact (aside_freeEnded ..).trans ((aside_drainQueue _).trans (aside_bookBoundary ..))
  · exact (aside_drainQueue _).trans ((aside_bookBoundary ..).trans (aside_freeEnded ..))

theorem aside_noteBoundary (s : State) : Aside s (noteBoundary s) := by
  rw [noteBoundary_eq]
  exact { Aside.refl s with work := tlWork_congr rfl (by simp [Function.comp_def]) }

theorem aside_openAccumulators (t : Nat) (s : State) : Aside s (openAccumulators t s) :=
  .foldl (fun u _ => .ite (fun _ => by exact { Aside.refl u with }) fun _ => .refl _) ..

/-! ### The Dispatcher's inputs -/

theorem aside_takeSample (d : Int) (s : State) : Aside s (takeSample d s) :=
  .ite (fun _ => .ite (fun _ => .trans (t := { s with disp := _ }) (by exact { Aside.refl s with }) (aside_raiseTlGl ..))
    fun _ => { Aside.refl s with }) fun _ => .refl s

theorem aside_sampleByte (s : State) (b : Byte) : Aside s (sampleByte s b) := by
  dsimp only [sampleByte]
  cases (receiveSampleByte s.disp.receiver b).2 with
  | none => exact { Aside.refl s with }
  | some d => exact .trans (t := { s with disp := _ }) (by exact { Aside.refl s with }) (aside_takeSample d _)

theorem aside_takeFrequencyWatch (s : State) : Aside s (takeFrequencyWatch s) :=
  .ite (fun _ => .trans (t := { s with disp := _ }) (by exact { Aside.refl s with }) (aside_raiseTlGl ..)) fun _ => .refl s

theorem aside_takeSilence (s : State) : Aside s (takeSilence s) :=
  .ite (fun _ => .trans (t := { s with disp := _ }) (by exact { Aside.refl s with }) (aside_raiseTlGl ..)) fun _ => .refl s

/-! ### The requests -/

/-- The requests that act on channels, or wait for a job. -/
def actsOnChannels : Request → Bool
  | .start => true
  | .stop => true
  | .engage => true
  | .disengage => true
  | .override => true
  | _ => false

theorem aside_takeProduct (l : Link) (c : List Byte) (s : State) : Aside s (takeProduct l c s).1 := by
  unfold takeProduct
  cases productOf (readU c 0 1) with
  | none => exact .refl s
  | some p =>
    dsimp only [setProduct]
    split_ifs <;> exact { Aside.refl s with }

theorem aside_takeAward (l : Link) (c : List Byte) (s : State) : Aside s (takeAward l c s).1 := by
  unfold takeAward
  split_ifs
  · exact .refl s
  · cases findEntry s (readU c 0 2) (readU c 2 4) with
    | error code => exact .refl s
    | ok e =>
      dsimp only [awardFound]
      split_ifs
      · exact .refl s
      · exact .refl s
      · exact aside_endEntry ..
      · exact .trans (t := setEntry _ _ (setShares _ s)) (by exact { Aside.refl s with }) (aside_noteAward ..)

theorem aside_takeWithdraw (l : Link) (c : List Byte) (s : State) : Aside s (takeWithdraw l c s).1 := by
  unfold takeWithdraw
  cases findEntry s (readU c 0 2) (readU c 2 4) with
  | error code => exact .refl s
  | ok e =>
    dsimp only [withdrawFound]
    split_ifs <;> exact { Aside.refl s with }

theorem aside_takeDiscard (l : Link) (c : List Byte) (s : State) : Aside s (takeDiscard l c s).1 := by
  unfold takeDiscard
  cases findEntry s (readU c 0 2) (readU c 2 4) with
  | error code => exact .refl s
  | ok e =>
    dsimp only [discardFound]
    split_ifs <;> exact { Aside.refl s with }

theorem aside_takeRelease (l : Link) (c : List Byte) (s : State) : Aside s (takeRelease l c s).1 := by
  unfold takeRelease
  cases findEntry s (readU c 0 2) (readU c 2 4) with
  | error code => exact .refl s
  | ok e =>
    dsimp only [releaseFound, releaseEntry]
    have emitted : Aside s (if e.state = .active then emitReleased (readU c 0 2) s else s) :=
      .ite (fun _ => aside_emitReleased ..) fun _ => .refl s
    split_ifs at emitted ⊢
    · exact emitted.trans (.trans (aside_endEntry ..) (aside_placeChange ..))
    · exact .trans (aside_endEntry ..) (aside_placeChange ..)
    · exact .refl s
    · exact .refl s

theorem aside_takeActivate (l : Link) (c : List Byte) (s : State) : Aside s (takeActivate l c s).1 := by
  have stored (keep : Bool) (p r : Nat) : Aside s (storeRequested keep p r s) :=
    .ite (fun _ => .refl s) fun _ => .ite (fun _ => { Aside.refl s with }) fun _ => { Aside.refl s with }
  have ended (u : State) : Aside u (endSilence u) :=
    .ite (fun _ => .trans (t := { u with disp := _ }) (by exact { Aside.refl u with }) (aside_raiseTlGl ..))
      fun _ => { Aside.refl u with }
  dsimp only [takeActivate]
  split_ifs
  · exact .refl s
  · exact (stored ..).trans (ended _)

theorem aside_takeSet (l : Link) (c : List Byte) (s : State) : Aside s (takeSet l c s).1 := by
  unfold takeSet
  cases settingOf (readU c 2 1) (readU c 3 2) with
  | none => exact .refl s
  | some x =>
    dsimp only [handleSetting]
    split_ifs
    · exact { Aside.refl s with }
    · exact aside_applySetting ..
    · exact .refl s
    · exact { Aside.refl s with }

theorem aside_setMap (l : Link) (m : UnitMap) (s : State) : Aside s (setMap l m s) := by
  cases l <;> exact { Aside.refl s with links := fun k => by cases k <;> rfl }

theorem aside_takeMap (l : Link) (c : List Byte) (s : State) : Aside s (takeMap l c s).1 := by
  unfold takeMap
  cases selectorOf (readU c 0 1) with
  | none => exact .refl s
  | some k =>
    dsimp only [mapSelected]
    split_ifs
    · exact .refl s
    · exact .refl s
    · exact .refl s
    · exact .refl s
    · exact aside_setMap ..

theorem aside_takeTime (l : Link) (c : List Byte) (s : State) : Aside s (takeTime l c s).1 := by
  dsimp only [takeTime]
  split_ifs
  · exact .refl s
  · exact .refl s
  · exact .refl s
  · exact .trans (t := { s with time := _ }) (by exact { Aside.refl s with }) (aside_raiseTlGl ..)
  · exact .refl s
  · exact { Aside.refl s with }

theorem aside_takeFeeder (l : Link) (c : List Byte) (s : State) : Aside s (takeFeeder l c s).1 := by
  dsimp only [takeFeeder, writeFeeder]
  split_ifs
  · exact .refl s
  · exact .refl s
  · exact .trans (t := setFeeder _ _ s) (by exact { Aside.refl s with }) (.trans (aside_markEntries ..) (aside_disturb ..))
  · exact { Aside.refl s with }

theorem aside_takeSettings (l : Link) (c : List Byte) (s : State) : Aside s (takeSettings l c s).1 := by
  dsimp only [takeSettings, writeSettings]
  split_ifs
  · exact .refl s
  · exact .refl s
  · exact .trans (t := writePeriod _ (writeHoldback _ s)) (by exact { Aside.refl s with }) (aside_arbitrate _)
  · exact .trans (t := writePeriod _ (writeHoldback _ s)) (by exact { Aside.refl s with }) (.trans (aside_applyLostLimit ..) (aside_arbitrate _))

theorem aside_takeClear (l : Link) (c : List Byte) (s : State) : Aside s (takeClear l c s).1 := by
  unfold takeClear
  split_ifs
  · exact .refl s
  · exact .trans (t := { s with disp := _ }) (by exact { Aside.refl s with }) (aside_raiseOverride _)

/-- Every request but OFFER, QUOTE and those on channels is taken aside of links, TL work, channels and rounds. -/
theorem aside_takeOf {q : Request} (h : actsOnChannels q = false) (notOffer : q ≠ .offer) (notQuote : q ≠ .quote)
    (l : Link) (c : List Byte) (s : State) : Aside s (takeOf q l c s).1 := by
  cases q with
  | start => cases h
  | stop => cases h
  | engage => cases h
  | disengage => cases h
  | override => cases h
  | offer => exact absurd rfl notOffer
  | quote => exact absurd rfl notQuote
  | award => exact aside_takeAward l c s
  | withdraw => exact aside_takeWithdraw l c s
  | discard => exact aside_takeDiscard l c s
  | list => exact (takeList_state l c s).symm ▸ Aside.refl s
  | entry => exact (takeEntry_state l c s).symm ▸ Aside.refl s
  | take => dsimp only [takeOf, takeTake]; cases s.track.queue <;> exact { Aside.refl s with }
  | margin => exact { Aside.refl s with }
  | units => exact .refl s
  | feeders => exact .refl s
  | settings => exact aside_takeSettings l c s
  | map => exact aside_takeMap l c s
  | time => exact aside_takeTime l c s
  | gate => dsimp only [takeOf, takeGate]; split_ifs <;> exact { Aside.refl s with }
  | feeder => exact aside_takeFeeder l c s
  | product => exact aside_takeProduct l c s
  | deadband => dsimp only [takeOf, takeDeadband]; split_ifs <;> exact { Aside.refl s with }
  | activate => exact aside_takeActivate l c s
  | clear => exact aside_takeClear l c s
  | release => exact aside_takeRelease l c s
  | thresholds => dsimp only [takeOf, takeThresholds]; split_ifs <;> exact { Aside.refl s with }
  | lockShort => exact { Aside.refl s with }
  | lineMode => dsimp only [takeOf, takeLineMode]; split <;> exact { Aside.refl s with }
  | dispatch => exact .refl s
  | set => exact aside_takeSet l c s
  | channels => exact { Aside.refl s with }

end Sys2Proof.Machine

/-! PROOF. One request at a time on each link: exactly one answer is due while a request is in process (R81, R165,
R167). Most operations change no answer, no transmitter and no TL work; the frames' reception, the transmitters' service
and the TL jobs move one answer from one place to the next. -/

namespace Sys2Proof.Machine

/-! ### Operations that change nothing that is due -/

/-- Of links and TL work nothing but pending notices differs. -/
def Quiet (s t : State) : Prop := LinksQuiet s t ∧ tlWork t.eval = tlWork s.eval

/-- A step's part that keeps every link to one request. -/
def OneKept (s t : State) : Prop := OneRequestInProcess s → OneRequestInProcess t

theorem Inner.quiet {s t : State} (h : Inner s t) : Quiet s t := ⟨h.links.quiet, h.marks.work⟩

theorem Aside.quiet {s t : State} (h : Aside s t) : Quiet s t := ⟨h.links, h.work⟩

theorem Quiet.refl (s : State) : Quiet s s := ⟨fun _ => rfl, rfl⟩

theorem Quiet.trans {s t u : State} (h : Quiet s t) (g : Quiet t u) : Quiet s u :=
  ⟨h.1.trans g.1, g.2.trans h.2⟩

theorem Quiet.ite {c : Prop} [Decidable c] {s t u : State} (h : c → Quiet s t) (g : ¬c → Quiet s u) :
    Quiet s (if c then t else u) := by
  split_ifs with hc
  · exact h hc
  · exact g hc

theorem OneKept.trans {s t u : State} (h : OneKept s t) (g : OneKept t u) : OneKept s u := g ∘ h

theorem OneKept.foldl {α : Type} {f : State → α → State} (h : ∀ s a, OneKept s (f s a)) (l : List α) (s : State) :
    OneKept s (l.foldl f s) := by
  induction l generalizing s with
  | nil => exact id
  | cons a l ih => exact (h s a).trans (ih (f s a))

theorem Quiet.inProcess {s t : State} (h : Quiet s t) (l : Link) : (linkOf t l).inProcess = (linkOf s l).inProcess := by
  rw [h.1 l]

theorem Quiet.answersDue {s t : State} (h : Quiet s t) (l : Link) : answersDue t l = answersDue s l := by
  have owed : owedCount (linkOf t l) = owedCount (linkOf s l) := by
    rw [h.1 l]
    rfl
  have sending : sendingCount (linkOf t l) = sendingCount (linkOf s l) := by
    rw [h.1 l]
    rfl
  unfold Machine.answersDue
  rw [owed, sending, h.2]

theorem Quiet.oneKept {s t : State} (h : Quiet s t) : OneKept s t := fun one l => by
  rw [h.answersDue, h.inProcess]
  exact one l

theorem quiet_slotBoundary (s : State) : Quiet s (slotBoundary s) :=
  have opened := (aside_openAccumulators s.time.slot (boundaryTables s.time.slot (boundaryClosed s))).quiet
  .trans (aside_noteBoundary s).quiet (.trans (inner_closeAccumulators ..).quiet
    (.trans (aside_boundaryTables ..).quiet opened))

theorem quiet_secondStep (s : State) : Quiet s (secondStep s) := by
  unfold secondStep
  exact .ite (fun _ => .refl s) fun _ => .ite (fun _ => .refl s) fun _ => .ite (fun _ => .refl s) fun _ =>
    quiet_slotBoundary { s with time := _ }

theorem quiet_takeTimeMark (s : State) : Quiet s (takeTimeMark s) :=
  .ite (fun _ => (aside_raiseTlGl .timeMark { s with time := _ }).quiet) fun _ => quiet_secondStep s

theorem quiet_takeMarkWatch (s : State) : Quiet s (takeMarkWatch s) := by
  have entered (u : State) : Quiet u (enterHoldover u) := by
    dsimp only [enterHoldover]
    have stepped := quiet_secondStep { u with time := { u.time with holdover := true, markWatch := none } }
    exact .trans (.trans stepped (quiet_secondStep _)) (aside_raiseTlGl .timeMark { secondStep (secondStep _) with time := _ }).quiet
  exact .ite (fun _ => entered s) fun _ => .refl s

theorem quiet_takeHoldoverSecond (s : State) : Quiet s (takeHoldoverSecond s) :=
  .ite (fun _ => quiet_secondStep s) fun _ => .refl s

theorem quiet_takeExchangeTimer (s : State) : Quiet s (takeExchangeTimer s) :=
  .ite (fun _ => .ite (fun _ => .refl s) fun _ => (inner_beginRound { s with ctl := _ }).quiet) fun _ => .refl s

theorem quiet_takeOverride (l : Link) (c : List Byte) (s : State) : Quiet s (takeOverride l c s).1 := by
  unfold takeOverride
  cases overrideOf (readU c 0 1) with
  | none => exact .refl s
  | some o =>
    have put : Quiet s (putOverride o s) :=
      .trans (inner_raiseOverride { s with disp := _ }).quiet
        (.ite (fun _ => (Inner.foldl inner_haltChannel ..).quiet) fun _ => .refl _)
    dsimp only
    split_ifs
    · exact .refl s
    · exact put

/-- Every request but OFFER and QUOTE changes nothing that is due. -/
theorem quiet_takeOf {q : Request} (notOffer : q ≠ .offer) (notQuote : q ≠ .quote) (l : Link) (c : List Byte)
    (s : State) : Quiet s (takeOf q l c s).1 := by
  by_cases aside : actsOnChannels q = false
  · exact (aside_takeOf aside notOffer notQuote l c s).quiet
  · cases q with
    | start => exact (inner_takeStart l c s).quiet
    | stop => exact (inner_takeStop l c s).quiet
    | engage => exact (inner_takeEngage l c s).quiet
    | disengage => exact (inner_takeDisengage l c s).quiet
    | override => exact quiet_takeOverride l c s
    | _ => exact absurd rfl aside

/-! ### Writes of one link's record -/

/-- The answers due on a record, beside the TL work. -/
def dueOn (r : LinkRec) : Nat := owedCount r + sendingCount r

/-- A link's record written so that what is due stays in balance with its request in process. -/
theorem one_setLink {l : Link} {r : LinkRec} {s : State}
    (h : ∀ w, dueOn (linkOf s l) + w = (if (linkOf s l).inProcess.isSome then 1 else 0) →
      dueOn r + w = if r.inProcess.isSome then 1 else 0) : OneKept s (setLink l r s) := fun one k => by
  have due := one k
  unfold answersDue at due ⊢
  rw [setLink_eval]
  by_cases same : k = l
  · subst same
    rw [linkOf_setLink_self]
    exact h _ due
  · rw [linkOf_setLink_ne same]
    exact due

/-- A record written whose answers, transmitter and request in process are as they were. -/
theorem one_setLink_same {l : Link} {r : LinkRec} {s : State} (answers : r.answers = (linkOf s l).answers)
    (tx : r.tx = (linkOf s l).tx) (inProcess : r.inProcess = (linkOf s l).inProcess) : OneKept s (setLink l r s) :=
  one_setLink fun w due => by
    unfold dueOn owedCount sendingCount at *
    rwa [answers, tx, inProcess]

theorem one_frameComplete (l : Link) (s : State) : OneKept s (frameComplete l s) := one_setLink_same rfl rfl rfl

theorem one_setReceiver (l : Link) (r : Receiver) (s : State) : OneKept s (setReceiver l r s) :=
  one_setLink_same rfl rfl rfl

theorem one_oweBusy (l : Link) (tag : Byte) (s : State) : OneKept s (oweBusy l tag s) := one_setLink_same rfl rfl rfl

theorem one_oweTelegram (tag : Byte) (code : AnswerCode) (result : List Byte) (s : State) :
    OneKept s (oweTelegram tag code result s) := one_setLink_same rfl rfl rfl

theorem dueOn_append (r : LinkRec) (o : OwedAnswer) (p : Option InProcess) :
    dueOn { r with answers := r.answers ++ [o], inProcess := p } = dueOn r + if o.ends then 1 else 0 := by
  have owed : owedCount { r with answers := r.answers ++ [o], inProcess := p } =
      owedCount r + if o.ends then 1 else 0 := by
    unfold owedCount
    dsimp only
    rw [List.filter_append, List.length_append]
    cases h : o.ends <;> simp [h]
  unfold dueOn
  rw [owed, show sendingCount { r with answers := r.answers ++ [o], inProcess := p } = sendingCount r from rfl]
  omega

/-- A refused frame's answer ends no request (log 8). -/
theorem one_oweRefusal (l : Link) (tag : Byte) (code : AnswerCode) (result : List Byte) (s : State) :
    OneKept s (oweAnswer l tag code result false s) :=
  one_setLink fun w due => by
    rw [dueOn_append]
    exact due

/-! ### The transmitters -/

theorem one_kickTx (l : Link) (s : State) : OneKept s (kickTx l s) := by
  dsimp only [kickTx]
  by_cases free : (linkOf s l).tx = .free
  · rw [if_pos free]
    have idle : sendingCount (linkOf s l) = 0 := by simp [sendingCount, free]
    cases (linkOf s l).telegram with
    | some a =>
      refine one_setLink fun w due => ?_
      unfold dueOn at *
      rw [idle] at due
      exact due
    | none =>
      dsimp only
      cases owed : (linkOf s l).answers with
      | cons o rest =>
        refine one_setLink fun w due => ?_
        unfold dueOn at *
        rw [idle] at due
        rw [← due]
        unfold owedCount sendingCount
        rw [owed, List.filter_cons]
        cases o.ends <;> simp <;> omega
      | nil =>
        dsimp only
        cases (linkOf s l).busy with
        | some a =>
          refine one_setLink fun w due => ?_
          unfold dueOn owedCount at *
          rw [idle, owed] at due
          exact due
        | none =>
          dsimp only
          cases firstNotice (linkOf s l).notices with
          | none => exact id
          | some k =>
            have sent : OneKept s (setLink l { linkOf s l with
                notices := noticeSet (linkOf s l).notices k false
                tx := .sending (.notice k) (noticeWire k (timeStatus s) (noticeContents s k)) } s) := by
              refine one_setLink fun w due => ?_
              unfold dueOn at *
              rw [idle] at due
              exact due
            dsimp only [sendNotice]
            split_ifs
            · exact fun one => sent one
            · exact sent
  · rw [if_neg free]
    exact id

theorem one_serveLink (b : Bool) (l : Link) (s : State) : OneKept s (serveLink b l s) := by
  rcases serveLink_cases b l s with ⟨_, _, e⟩ | ⟨_, e⟩ <;> rw [e]
  · exact id
  · exact one_kickTx l s

theorem one_settleWith (b : Bool) (s : State) : OneKept s (settleWith b s) :=
  (inner_kickLines s).quiet.oneKept.trans ((aside_arbitrate _).quiet.oneKept.trans
    ((one_serveLink b .tl _).trans ((one_serveLink b .gl _).trans ((one_kickTx .fa _).trans (one_kickTx .fb _)))))

theorem one_effect {f : State → State} {s t : State} (h : OneKept s (f s)) (e : effect f s = .next t) :
    OneKept s t := by
  unfold effect at e
  split_ifs at e <;> obtain rfl := Host.Outcome.next.inj e
  · exact id
  · exact h.trans (one_settleWith false _)

/-- The end of an answer to the request in process ends that request (R167, R170). -/
theorem one_endSending (l : Link) (s : State) : OneKept s (endSending l s) := by
  unfold endSending
  cases tx : (linkOf s l).tx with
  | free => exact id
  | sending kind wire =>
    have quietEnd (notAnswer : sendingCount (linkOf s l) = 0) : OneKept s (setLink l { linkOf s l with tx := .free } s) :=
      one_setLink fun w due => by
        unfold dueOn at *
        rw [notAnswer] at due
        exact due
    cases kind with
    | telegram => exact quietEnd (by simp [sendingCount, tx])
    | busy => exact quietEnd (by simp [sendingCount, tx])
    | notice k => exact quietEnd (by simp [sendingCount, tx])
    | answer ends =>
      cases ends with
      | false => exact quietEnd (by simp [sendingCount, tx])
      | true =>
        refine one_setLink fun w due => ?_
        have sending : sendingCount (linkOf s l) = 1 := by simp [sendingCount, tx]
        have done : dueOn { linkOf s l with tx := .free, inProcess := none } = owedCount (linkOf s l) := rfl
        unfold dueOn at due
        rw [sending] at due
        rw [done, Option.isSome_none, if_neg Bool.false_ne_true]
        split_ifs at due <;> omega

/-! ### Requests -/

/-- Every request but OFFER and QUOTE is answered by its block at once. -/
theorem reply_takeOf {q : Request} (notOffer : q ≠ .offer) (notQuote : q ≠ .quote) (l : Link) (c : List Byte)
    (s : State) : ∃ code result, (takeOf q l c s).2 = .answer code result := by
  suffices h : (takeOf q l c s).2 ≠ .waits by
    cases reply : (takeOf q l c s).2 with
    | answer code result => exact ⟨code, result, rfl⟩
    | waits => exact absurd reply h
  cases q with
  | offer => exact absurd rfl notOffer
  | quote => exact absurd rfl notQuote
  | award =>
    dsimp only [takeOf, takeAward]
    split_ifs
    · simp [refuse]
    · cases findEntry s (readU c 0 2) (readU c 2 4) with
      | error code => simp [refuse]
      | ok e =>
        dsimp only [awardFound]
        split_ifs <;> simp [refuse, done]
  | withdraw =>
    dsimp only [takeOf, takeWithdraw]
    cases findEntry s (readU c 0 2) (readU c 2 4) with
    | error code => simp [refuse]
    | ok e =>
      dsimp only [withdrawFound]
      split_ifs <;> simp [refuse, done]
  | discard =>
    dsimp only [takeOf, takeDiscard]
    cases findEntry s (readU c 0 2) (readU c 2 4) with
    | error code => simp [refuse]
    | ok e =>
      dsimp only [discardFound]
      split_ifs <;> simp [refuse, done]
  | release =>
    dsimp only [takeOf, takeRelease]
    cases findEntry s (readU c 0 2) (readU c 2 4) with
    | error code => simp [refuse]
    | ok e =>
      dsimp only [releaseFound]
      split_ifs <;> simp [refuse, done]
  | list =>
    dsimp only [takeOf, takeList]
    split_ifs <;> simp [refuse, done]
  | entry =>
    dsimp only [takeOf, takeEntry]
    by_cases above : 1023 < readU c 0 2
    · simp [above, refuse]
    · rw [if_neg above]
      cases entryOf s (readU c 0 2) with
      | none => simp [refuse]
      | some e =>
        dsimp only
        split_ifs <;> simp [refuse, done]
  | take =>
    dsimp only [takeOf, takeTake]
    cases s.track.queue <;> simp [refuse, done]
  | map =>
    dsimp only [takeOf, takeMap]
    cases selectorOf (readU c 0 1) with
    | none => simp [refuse]
    | some k =>
      dsimp only [mapSelected]
      split_ifs <;> simp [refuse, done]
  | product =>
    dsimp only [takeOf, takeProduct]
    cases productOf (readU c 0 1) with
    | none => simp [refuse]
    | some p =>
      dsimp only [setProduct]
      split_ifs <;> simp [refuse, done]
  | override =>
    dsimp only [takeOf, takeOverride]
    cases overrideOf (readU c 0 1) with
    | none => simp [refuse]
    | some o =>
      dsimp only
      split_ifs <;> simp [refuse, done]
  | set =>
    dsimp only [takeOf, takeSet]
    cases settingOf (readU c 2 1) (readU c 3 2) with
    | none => simp [refuse]
    | some x =>
      dsimp only [handleSetting]
      split_ifs <;> simp [refuse, done]
  | lineMode =>
    dsimp only [takeOf, takeLineMode]
    split <;> simp [refuse, done]
  | settings => dsimp only [takeOf, takeSettings]; split_ifs <;> simp [refuse, done]
  | time => dsimp only [takeOf, takeTime]; split_ifs <;> simp [refuse, done]
  | gate => dsimp only [takeOf, takeGate]; split_ifs <;> simp [refuse, done]
  | feeder => dsimp only [takeOf, takeFeeder]; split_ifs <;> simp [refuse, done]
  | deadband => dsimp only [takeOf, takeDeadband]; split_ifs <;> simp [refuse, done]
  | activate => dsimp only [takeOf, takeActivate]; split_ifs <;> simp [refuse, done]
  | clear => dsimp only [takeOf, takeClear]; split_ifs <;> simp [refuse, done]
  | thresholds => dsimp only [takeOf, takeThresholds]; split_ifs <;> simp [refuse, done]
  | start => dsimp only [takeOf, takeStart]; split_ifs <;> simp [refuse, done]
  | engage => dsimp only [takeOf, takeEngage]; split_ifs <;> simp [refuse, done]
  | disengage => dsimp only [takeOf, takeDisengage]; split_ifs <;> simp [refuse, done]
  | margin => simp [takeOf, takeMargin, done]
  | units => simp [takeOf, takeUnits, done]
  | feeders => simp [takeOf, takeFeeders, done]
  | lockShort => simp [takeOf, takeLockShort, done]
  | dispatch => simp [takeOf, takeDispatch, done]
  | stop => simp [takeOf, takeStop, done]
  | channels => simp [takeOf, takeChannels, done]

/-- A request answered at once becomes the request in process with its one answer due. -/
theorem one_answered {l : Link} {s : State} (idle : (linkOf s l).inProcess = none) (q : Request) (tag : Byte)
    (code : AnswerCode) (result : List Byte) : OneKept s (answered q l tag code result s) := by
  have combined : answered q l tag code result s = setLink l { linkOf s l with
      answers := (linkOf s l).answers ++ [{ answer := formAnswer s tag code result, ends := true }]
      inProcess := some { code := requestCode q, tag := tag } } s := by
    cases l <;> rfl
  rw [combined]
  refine one_setLink fun w due => ?_
  rw [idle, Option.isSome_none, if_neg Bool.false_ne_true] at due
  rw [dueOn_append]
  simp only [if_true, Option.isSome_some]
  omega

/-- A request that waits for its job becomes the request in process, its answer still to be formed. -/
theorem one_processing {s : State} (idle : (linkOf s .tl).inProcess = none) (r : TlRequest) (q : Request) (tag : Byte) :
    OneKept s (processing q .tl tag (placeTl r s)) := fun one l => by
  have dueTl := one .tl
  have due := one l
  unfold answersDue at due dueTl ⊢
  rw [idle, Option.isSome_none, if_neg Bool.false_ne_true, if_pos rfl] at dueTl
  have idleWork : tlWork s.eval = 0 := by omega
  have placed : tlWork (processing q .tl tag (placeTl r s)).eval = 1 := by
    have noJob : tlWork (processing q .tl tag (placeTl r s)).eval = 1 + tlWork { s.eval with slot := none } := by
      simp [tlWork, processing, placeTl]
    have dropped : tlWork { s.eval with slot := none } ≤ tlWork s.eval := by
      simp [tlWork]
    omega
  rw [placed]
  cases l with
  | tl =>
    have same : dueOn (linkOf (processing q .tl tag (placeTl r s)) .tl) = dueOn (linkOf s .tl) := rfl
    unfold dueOn at same
    rw [same, if_pos rfl]
    simp only [processing, linkOf_setLink_self, if_true, Option.isSome_some]
    omega
  | gl => exact due
  | fa => exact due
  | fb => exact due

/-- Only TL may send an OFFER or a QUOTE (R167). -/
theorem link_of_allowed {q : Request} (h : q = .offer ∨ q = .quote) {l : Link} {c : List Byte} {s : State}
    (taken : frameRefusal q l c s = none) : l = .tl := by
  rcases h with rfl | rfl <;> cases l <;> simp [frameRefusal, allowed, classOf] at taken ⊢

/-- An OFFER or a QUOTE is refused at once, or waits in the TL job slot. -/
theorem takeOffer_cases (l : Link) (c : List Byte) (s : State) :
    (∃ code, takeOffer l c s = (s, refuse code)) ∨ ∃ r, takeOffer l c s = (placeTl r s, .waits) := by
  unfold takeOffer
  split_ifs
  · exact .inl ⟨_, rfl⟩
  · cases productOf (readU c 4 1) with
    | none => exact .inl ⟨_, rfl⟩
    | some p =>
      dsimp only
      cases offerRefusal s (readU c 0 4) (readU c 5 4) (readU c 9 1) (readU c 10 2) with
      | some code => exact .inl ⟨code, rfl⟩
      | none => exact .inr ⟨_, rfl⟩

theorem takeQuote_cases (l : Link) (c : List Byte) (s : State) :
    (∃ code, takeQuote l c s = (s, refuse code)) ∨ ∃ r, takeQuote l c s = (placeTl r s, .waits) := by
  unfold takeQuote
  by_cases unset : s.time.timeSet = false
  · rw [if_pos unset]
    exact .inl ⟨_, rfl⟩
  · rw [if_neg unset]
    cases productOf (readU c 0 1) with
    | none => exact .inl ⟨_, rfl⟩
    | some p =>
      dsimp only
      split_ifs
      · exact .inl ⟨_, rfl⟩
      · exact .inr ⟨_, rfl⟩

theorem one_handOn {q : Request} {l : Link} {c : List Byte} {s : State} (idle : (linkOf s l).inProcess = none)
    (taken : frameRefusal q l c s = none) (tag : Byte) : OneKept s (handOn q (takeOf q) l tag c s) := by
  rw [handOn_eq]
  by_cases waits : q = .offer ∨ q = .quote
  · obtain rfl := link_of_allowed waits taken
    have cases_ : (∃ code, takeOf q .tl c s = (s, refuse code)) ∨ ∃ r, takeOf q .tl c s = (placeTl r s, .waits) := by
      rcases waits with rfl | rfl
      · exact takeOffer_cases .tl c s
      · exact takeQuote_cases .tl c s
    rcases cases_ with ⟨code, e⟩ | ⟨r, e⟩ <;> rw [e]
    · exact one_answered idle q tag code []
    · exact one_processing idle r q tag
  · push Not at waits
    obtain ⟨notOffer, notQuote⟩ := waits
    have quiet := quiet_takeOf notOffer notQuote l c s
    obtain ⟨code, result, reply⟩ := reply_takeOf notOffer notQuote l c s
    rw [reply]
    exact quiet.oneKept.trans (one_answered ((quiet.inProcess l).trans idle) q tag code result)

theorem one_receiveRequest (q : Request) (l : Link) (tag : Byte) (c : List Byte) (s : State) :
    OneKept s (receiveRequest q (takeOf q) l tag c s) := by
  refine (one_frameComplete l s).trans ?_
  dsimp only [receiveRequest]
  split_ifs with busy
  · exact one_oweBusy _ _ _
  · cases taken : frameRefusal q l c (frameComplete l s) with
    | some code => exact one_oweRefusal _ _ _ _ _
    | none => exact one_handOn (by simpa using busy) taken tag

theorem one_receiveUnknown (l : Link) (tag : Byte) (s : State) : OneKept s (receiveUnknown l tag s) := by
  refine (one_frameComplete l s).trans ?_
  dsimp only [receiveUnknown]
  split_ifs
  · exact one_oweBusy _ _ _
  · exact one_oweRefusal _ _ _ _ _

theorem one_receiveTelegram (tag : Byte) (c : List Byte) (s : State) : OneKept s (receiveTelegram tag c s) := by
  refine (one_frameComplete .gl s).trans ?_
  have quiet := (aside_takeActivate .gl c (frameComplete .gl s)).quiet.oneKept
  dsimp only [receiveTelegram]
  split_ifs
  · exact one_oweTelegram _ _ _ _
  · cases (takeActivate .gl c (frameComplete .gl s)).2 with
    | answer code result => exact quiet.trans (one_oweTelegram _ _ _ _)
    | waits => exact quiet

theorem one_receiveFrame (l : Link) (code tag : Byte) (c : List Byte) (s : State) :
    OneKept s (receiveFrame l code tag c s) := by
  unfold receiveFrame
  cases requestOf code with
  | none => exact one_receiveUnknown _ _ _
  | some q =>
    dsimp only
    split_ifs
    · exact one_receiveTelegram _ _ _
    · exact one_receiveRequest _ _ _ _ _

theorem one_receiveLinkChar (l : Link) (s : State) (ch : RxChar) : OneKept s (receiveLinkChar l s ch) := by
  refine (one_setReceiver l (receiveChar (linkOf s l).receiver ch).1 s).trans ?_
  dsimp only [receiveLinkChar]
  cases (receiveChar (linkOf s l).receiver ch).2 with
  | none => exact id
  | some p => exact one_receiveFrame _ _ _ _ _

theorem one_receiveCommand (q : Request) (l : Link) (tag : Byte) (c : List Byte) (s : State) :
    OneKept s (receiveCommand q l tag c s) := by
  unfold receiveCommand
  split_ifs with activate
  · subst activate
    cases l with
    | gl => exact one_receiveTelegram _ _ _
    | tl => exact one_receiveRequest .activate .tl tag c s
    | fa => exact one_receiveRequest .activate .fa tag c s
    | fb => exact one_receiveRequest .activate .fb tag c s
  · exact one_receiveRequest _ _ _ _ _

/-! ### Jobs -/

/-- The job in flight is that of a TL request. -/
def IsTlJob (j : Job) : Prop := ∀ n e, j.kind ≠ .replan n e

theorem tlWork_of_tlJob {e : Evaluator} {j : Job} (job : e.job = some j) (tl : IsTlJob j) :
    tlWork e = tlWork { e with job := none } + 1 := by
  unfold tlWork
  rw [job]
  dsimp only
  cases kind : j.kind with
  | replan n x => exact absurd kind (tl n x)
  | quote q => rfl
  | offer o => rfl

/-- A TL job completed: the answer that its request still had to come is owed (R89). -/
theorem one_answerTl {s : State} {j : Job} (job : s.eval.job = some j) (tl : IsTlJob j) (code : AnswerCode)
    (result : List Byte) : OneKept s (dropJob (answerTl code result s)) := fun one l => by
  have work := tlWork_of_tlJob job tl
  have dueTl := one .tl
  have due := one l
  unfold answersDue at due dueTl
  rw [if_pos rfl] at dueTl
  cases busy : (linkOf s .tl).inProcess with
  | none =>
    rw [busy, Option.isSome_none, if_neg Bool.false_ne_true] at dueTl
    omega
  | some p =>
    have answer : answerTl code result s = oweAnswer .tl p.tag code result true s := by simp [answerTl, busy]
    rw [answer]
    rw [busy, Option.isSome_some, if_pos rfl] at dueTl
    cases l with
    | gl => exact due
    | fa => exact due
    | fb => exact due
    | tl =>
      have owed := dueOn_append (linkOf s .tl) { answer := formAnswer s p.tag code result, ends := true }
        (linkOf s .tl).inProcess
      have total : answersDue (dropJob (oweAnswer .tl p.tag code result true s)) .tl =
          dueOn { linkOf s .tl with
            answers := (linkOf s .tl).answers ++ [{ answer := formAnswer s p.tag code result, ends := true }]
            inProcess := (linkOf s .tl).inProcess } + tlWork { s.eval with job := none } := rfl
      have still : (linkOf (dropJob (oweAnswer .tl p.tag code result true s)) .tl).inProcess = some p := busy
      rw [total, owed, still]
      unfold dueOn
      simp only [if_true, Option.isSome_some]
      omega

theorem admitOffer_job (j : Job) (o : OfferReq) (number booked : Nat) (s : State) :
    (admitOffer j o number booked s).eval.job = s.eval.job := by
  have started (p : Plan) (u : State) : (advanceStart p u).eval.job = u.eval.job := by
    unfold advanceStart
    cases p.lastUnit <;> rfl
  dsimp only [admitOffer]
  split_ifs
  · exact started ..
  · exact started ..

theorem one_takeTlComplete (s : State) : OneKept s (takeTlComplete s) := by
  unfold takeTlComplete
  cases job : s.eval.job with
  | none => exact id
  | some j =>
    dsimp only
    cases kind : j.kind with
    | replan n e => exact id
    | quote q => exact one_answerTl job (fun n e h => by simp [kind] at h) _ _
    | offer o =>
      have tl : IsTlJob j := fun n e h => by simp [kind] at h
      dsimp only [completeOffer]
      cases offerOutcome j o with
      | error code => exact one_answerTl job tl _ _
      | ok booked =>
        dsimp only [bookOffer]
        split_ifs
        · exact one_answerTl job tl _ _
        · cases lowestFreeEntry s with
          | none => exact one_answerTl job tl _ _
          | some n =>
            exact (aside_admitOffer j o n booked s).quiet.oneKept.trans
              (one_answerTl ((admitOffer_job ..).trans job) tl _ _)

theorem advanceStart_slot (p : Plan) (s : State) : (advanceStart p s).eval.slot = s.eval.slot := by
  unfold advanceStart
  cases p.lastUnit <;> rfl

theorem placeChange_eval (n : Nat) (b : Bool) (s : State) : (placeChange n b s).eval = s.eval := by
  simp [placeChange]

/-- A replan's completion leaves the TL request that waits where it is. -/
theorem completeReplan_slot (j : Job) (number : Nat) (e : Entry) (s : State) :
    (completeReplan j number e s).eval.slot = s.eval.slot := by
  have written (now : Entry) : (writeReplan j number e now s).eval.slot = s.eval.slot := by
    dsimp only [writeReplan]
    split_ifs
    · rfl
    · rw [advanceStart_slot, placeChange_eval]
      rfl
    · exact advanceStart_slot ..
  unfold completeReplan
  cases entryOf s number with
  | none => rfl
  | some now =>
    dsimp only
    split_ifs
    · rfl
    · rfl
    · exact written now
    · exact written now

theorem quiet_takeReplanComplete (s : State) : Quiet s (takeReplanComplete s) := by
  unfold takeReplanComplete
  cases job : s.eval.job with
  | none => exact .refl s
  | some j =>
    dsimp only
    cases kind : j.kind with
    | quote q => exact .refl s
    | offer o => exact .refl s
    | replan n e =>
      refine ⟨(aside_completeReplan j n e s).links, ?_⟩
      have replans : tlWork s.eval = tlWork { s.eval with job := none } := by simp [tlWork, job, kind]
      have slot : (completeReplan j n e s).eval.slot = s.eval.slot := completeReplan_slot ..
      rw [replans]
      exact tlWork_congr slot rfl

/-! ### Every step -/

theorem one_heldInReset (s : State) : OneRequestInProcess (heldInReset s) := fun l => by
  cases l <;> rfl

theorem one_exec {i : Instr} {s t : State} (e : exec i s = .next t) (notReset : i ≠ .reset) : OneKept s t := by
  rcases command_cases i with ⟨q, l, tag, c, rfl⟩ | other
  · rw [exec_commandOf] at e
    exact one_effect (one_receiveCommand _ _ _ _ _) e
  · cases other with
    | reset => exact absurd rfl notReset
    | releaseOfReset =>
      obtain rfl := Host.Outcome.next.inj e
      split_ifs
      · exact (Quiet.refl s).oneKept
      · exact id
    | timeMark => exact one_effect (quiet_takeTimeMark s).oneKept e
    | markWatchExpiry =>
      have e : execMarkWatchExpiry s = .next t := e
      unfold execMarkWatchExpiry at e
      split_ifs at e <;> obtain rfl := Host.Outcome.next.inj e
      · exact id
      · exact (quiet_takeMarkWatch s).oneKept.trans (one_settleWith _ _)
    | holdoverSecondTimerExpiry => exact one_effect (quiet_takeHoldoverSecond s).oneKept e
    | busy l code tag c => exact one_effect (one_receiveFrame l code tag c s) e
    | unknownRequestCode l code tag c => exact one_effect (one_receiveFrame l code tag c s) e
    | discardedFrame l chars =>
      exact one_effect (f := fun s => chars.foldl (receiveLinkChar l) s) (.foldl (one_receiveLinkChar l) chars s) e
    | intercharacterTimeout l => exact one_effect (one_setReceiver l .hunting s) e
    | frameSent l => exact one_effect (one_endSending l s) e
    | channelFrameSent ch => exact one_effect (inner_endChannelSending ch s).quiet.oneKept e
    | channelAnswer ch chars => exact one_effect (inner_takeAnswer ch chars s).quiet.oneKept e
    | replyWaitExpiry ch => exact one_effect (inner_takeReplyWait ch s).quiet.oneKept e
    | strayChannelFrame ch chars => exact one_effect (f := discardStray ch chars) id e
    | exchangeTimerExpiry => exact one_effect (quiet_takeExchangeTimer s).oneKept e
    | frequencySample bytes =>
      exact one_effect (f := fun s => bytes.foldl sampleByte s)
        (Aside.foldl aside_sampleByte bytes s).quiet.oneKept e
    | sampleByteTimeout => exact one_effect (f := dropSampleBytes) (Quiet.refl s).oneKept e
    | frequencyWatchExpiry => exact one_effect (aside_takeFrequencyWatch s).quiet.oneKept e
    | silenceTimerExpiry => exact one_effect (aside_takeSilence s).quiet.oneKept e
    | replanComplete => exact one_effect (quiet_takeReplanComplete s).oneKept e
    | tlJobComplete => exact one_effect (one_takeTlComplete s) e

/-- Settles O58: by the balance of what is due with the request in process, through every operation. -/
theorem everyStepKeepsOneRequest : Obligations.EveryStepKeepsOneRequest := fun _ _ h e =>
  step_keeps one_heldInReset (fun _ _ => id) (fun _ _ _ e notReset => one_exec e notReset) h e

end Sys2Proof.Machine

/-! PROOF. Rounds, rolls and discovery stay consistent (R44, R50, R51, R143, R149): every operation on a channel leaves
the other channels as they are, takes no channel into the round in flight, and leaves its channel's discovery progress in
STARTING alone. -/

namespace Sys2Proof.Machine

/-! ### The invariant -/

/-- A channel has discovery progress exactly in STARTING. -/
def DiscoveryFits (r : ChannelRec) : Prop := r.discovery.isSome = true ↔ r.state = .starting

/-- A channel takes part in rounds. -/
def InRounds (r : ChannelRec) : Prop := r.state = .idling ∨ r.state = .running

/-- The round in flight does not wait for a channel. -/
def OutstandingNot (c : Nat) (s : State) : Prop := ∀ r, s.ctl.round = some r → c ∉ r.outstanding

/-- Channels and rounds are consistent. -/
def Rounds (s : State) : Prop := Ascending s.ctl.channels ∧ RoundOpen s ∧ ChannelsConsistent s

/-- A step's part that keeps channels and rounds consistent. -/
def RoundsKept (s t : State) : Prop := Rounds s → Rounds t

theorem RoundsKept.trans {s t u : State} (h : RoundsKept s t) (g : RoundsKept t u) : RoundsKept s u := g ∘ h

theorem channelsConsistent_iff (s : State) :
    ChannelsConsistent s ↔ (∀ c, DiscoveryFits (channelOf s c)) ∧
      ∀ r, s.ctl.round = some r → ∀ c ∈ r.outstanding, InRounds (channelOf s c) := .rfl

/-- The round in flight goes on with channels that it waited for before, if it goes on. -/
def OutWithin (s t : State) : Prop :=
  ∀ q, t.ctl.round = some q → ∃ r, s.ctl.round = some r ∧ ∀ k ∈ q.outstanding, k ∈ r.outstanding

theorem OutWithin.of_round_eq {s t : State} (h : t.ctl.round = s.ctl.round) : OutWithin s t :=
  fun q hq => ⟨q, h ▸ hq, fun _ => id⟩

theorem OutWithin.trans {s t u : State} (h : OutWithin s t) (g : OutWithin t u) : OutWithin s u := fun q hq => by
  obtain ⟨r, hr, within⟩ := g q hq
  obtain ⟨p, hp, before⟩ := h r hr
  exact ⟨p, hp, fun k hk => before k (within k hk)⟩

theorem OutWithin.outstandingNot {s t : State} (h : OutWithin s t) {c : Nat} (n : OutstandingNot c s) :
    OutstandingNot c t := fun q hq hc => by
  obtain ⟨r, hr, within⟩ := h q hq
  exact n r hr (within c hc)

/-! ### Operations on one channel -/

/-- An operation on channel `c`: the others keep their records, and the round takes no channel in. -/
structure ChannelMove (c : Nat) (s t : State) : Prop where
  rising : Ascending s.ctl.channels → Ascending t.ctl.channels
  others : Ascending s.ctl.channels → ∀ k, k ≠ c → channelOf t k = channelOf s k
  opened : RoundOpen s → RoundOpen t
  within : OutWithin s t

/-- A `ChannelMove` after which the channel has discovery progress in STARTING alone. -/
structure ChannelStep (c : Nat) (s t : State) : Prop extends ChannelMove c s t where
  fits : Ascending s.ctl.channels → DiscoveryFits (channelOf s c) → DiscoveryFits (channelOf t c)

theorem ChannelMove.trans {c : Nat} {s t u : State} (h : ChannelMove c s t) (g : ChannelMove c t u) :
    ChannelMove c s u where
  rising := g.rising ∘ h.rising
  others := fun rising k hk => (g.others (h.rising rising) k hk).trans (h.others rising k hk)
  opened := g.opened ∘ h.opened
  within := h.within.trans g.within

namespace ChannelStep

theorem trans {c : Nat} {s t u : State} (h : ChannelStep c s t) (g : ChannelStep c t u) : ChannelStep c s u where
  toChannelMove := h.toChannelMove.trans g.toChannelMove
  fits := fun rising fits => g.fits (h.rising rising) (h.fits rising fits)

theorem refl (c : Nat) (s : State) : ChannelStep c s s :=
  { rising := id, others := fun _ _ _ => rfl, opened := id, within := .of_round_eq rfl, fits := fun _ => id }

theorem ite {p : Prop} [Decidable p] {c : Nat} {s t u : State} (h : p → ChannelStep c s t)
    (g : ¬p → ChannelStep c s u) : ChannelStep c s (if p then t else u) := by
  split_ifs with hp
  · exact h hp
  · exact g hp

theorem foldl {α : Type} {c : Nat} {f : State → α → State} (h : ∀ s a, ChannelStep c s (f s a)) (l : List α)
    (s : State) : ChannelStep c s (l.foldl f s) := by
  induction l generalizing s with
  | nil => exact refl c s
  | cons a l ih => exact (h s a).trans (ih (f s a))

end ChannelStep

theorem roundOpen_congr {s t : State} (round : t.ctl.round = s.ctl.round) (roll : t.track.roll = s.track.roll)
    (held : t.track.held = s.track.held) (h : RoundOpen s) : RoundOpen t := by
  unfold RoundOpen at *
  rwa [round, roll, held]

theorem channelOf_congr {s t : State} (h : t.ctl.channels = s.ctl.channels) (k : Nat) :
    channelOf t k = channelOf s k := by
  unfold channelOf
  rw [h]

theorem Aside.channelStep {s t : State} (h : Aside s t) (c : Nat) : ChannelStep c s t where
  rising := fun rising => by rwa [h.channels]
  others := fun _ k _ => channelOf_congr h.channels k
  opened := roundOpen_congr h.round h.roll h.held
  within := .of_round_eq h.round
  fits := fun _ fits => by rwa [channelOf_congr h.channels]

theorem channelOf_setChannel {s : State} (rising : Ascending s.ctl.channels) (c k : Nat) (r : ChannelRec) :
    channelOf (setChannel c r s) k = if k = c then r else channelOf s k := by
  show tableGet ChannelRec.reset (tableSet ChannelRec.reset s.ctl.channels c r) k = _
  rw [tableGet_tableSet rising]
  rfl

theorem ascending_tableSet {α : Type} [DecidableEq α] {d : α} {t : List (Nat × α)} (h : Ascending t) (i : Nat) (v : α) :
    Ascending (tableSet d t i v) := by
  unfold tableSet
  split_ifs
  · exact ascending_tableErase h i
  · exact ascending_tableInsert h i v

theorem move_setChannel (c : Nat) (r : ChannelRec) (s : State) : ChannelMove c s (setChannel c r s) where
  rising := fun rising => ascending_tableSet rising c r
  others := fun rising k hk => by rw [channelOf_setChannel rising, if_neg hk]
  opened := id
  within := .of_round_eq rfl

theorem step_setChannel {c : Nat} {r : ChannelRec} {s : State}
    (fits : DiscoveryFits (channelOf s c) → DiscoveryFits r := by exact id) : ChannelStep c s (setChannel c r s) where
  toChannelMove := move_setChannel c r s
  fits := fun rising old => by
    rw [channelOf_setChannel rising, if_pos rfl]
    exact fits old

/-- After an operation on one channel, that channel is consistent with the round when the round does not wait for it or
it still takes part. -/
theorem rounds_of_move {c : Nat} {s t : State} (h : Rounds s) (move : ChannelMove c s t)
    (fits : DiscoveryFits (channelOf t c)) (out : OutstandingNot c t ∨ InRounds (channelOf t c)) : Rounds t := by
  obtain ⟨rising, opened, discovery, outstanding⟩ := h
  refine ⟨move.rising rising, move.opened opened, fun k => ?_, fun q hq k hk => ?_⟩
  · by_cases hc : k = c
    · exact hc ▸ fits
    · rw [move.others rising k hc]
      exact discovery k
  · obtain ⟨r, hr, within⟩ := move.within q hq
    by_cases hc : k = c
    · subst hc
      exact out.resolve_left fun n => n q hq hk
    · rw [move.others rising k hc]
      exact outstanding r hr k (within k hk)

theorem Rounds.fits {s : State} (h : Rounds s) (c : Nat) : DiscoveryFits (channelOf s c) := h.2.2.1 c

/-- The round in flight waits for channels that take part in rounds alone. -/
theorem Rounds.outstandingNot {s : State} (h : Rounds s) {c : Nat} (n : ¬InRounds (channelOf s c)) :
    OutstandingNot c s := fun r hr hc => n (h.2.2.2 r hr c hc)

/-- An operation on one channel that leaves its state, or takes it out of the round. -/
theorem ChannelStep.roundsKept {c : Nat} {s t : State} (step : ChannelStep c s t)
    (out : Rounds s → OutstandingNot c t ∨ (channelOf t c).state = (channelOf s c).state) : RoundsKept s t := by
  intro h
  have fits := step.fits h.1 (h.fits c)
  rcases out h with out | state
  · exact rounds_of_move h step.toChannelMove fits (.inl out)
  · by_cases part : InRounds (channelOf s c)
    · exact rounds_of_move h step.toChannelMove fits (.inr (by unfold InRounds; rwa [state]))
    · exact rounds_of_move h step.toChannelMove fits (.inl (step.within.outstandingNot (h.outstandingNot part)))

theorem Aside.roundsKept {s t : State} (h : Aside s t) : RoundsKept s t :=
  (h.channelStep 0).roundsKept fun _ => .inr (by rw [channelOf_congr h.channels])

/-- A channel's record written within its state and its discovery progress. -/
theorem rounds_setChannel_calm {c : Nat} {r : ChannelRec} {s : State} (state : r.state = (channelOf s c).state)
    (discovery : r.discovery = (channelOf s c).discovery) : RoundsKept s (setChannel c r s) := fun h =>
  (step_setChannel (r := r) (s := s) fun fits => by unfold DiscoveryFits; rwa [state, discovery]).roundsKept
    (fun h => .inr (by rw [channelOf_setChannel h.1, if_pos rfl, state])) h

/-! ### A round's completion -/

/-- A round that has no roll, or a roll without a round, is not begun and ended in one. -/
def RollOpen (s : State) : Prop :=
  match s.ctl.round with
  | none => s.track.roll = none ∧ s.track.held = []
  | some _ => s.track.roll.isSome = true

theorem RoundOpen.rollOpen {s : State} (h : RoundOpen s) : RollOpen s := by
  unfold RoundOpen at h
  unfold RollOpen
  cases round : s.ctl.round <;> rw [round] at h
  case none => exact h
  case some r => exact h.2

theorem aside_marginCompletion (s : State) : Aside s (marginCompletion s) :=
  .ite (fun _ => { Aside.refl s with }) fun _ => .trans (t := { s with margin := _ }) (by exact { Aside.refl s with }) (aside_raiseTlGl ..)

theorem appendRecord_ctl (d : DeliveryRecord) (s : State) : (appendRecord d s).ctl = s.ctl := by
  dsimp only [appendRecord]
  split_ifs <;> simp

theorem emitRecord_ctl (n : Nat) (a : Accumulator) (released : Bool) (s : State) :
    (emitRecord n a released s).ctl = s.ctl := by
  unfold emitRecord
  cases entryOf s n with
  | none => rfl
  | some e => exact appendRecord_ctl ..

theorem emitHeld_round (s : State) :
    (emitHeld s).ctl = s.ctl ∧ (emitHeld s).track.roll = s.track.roll ∧ (emitHeld s).track.held = [] := by
  have emitted := Aside.foldl (fun s (p : Nat × Accumulator) => aside_emitRecord p.1 p.2 false s) s.track.held
    { s with track := { s.track with held := [] } }
  have ctl (u : State) (l : List (Nat × Accumulator)) :
      (l.foldl (fun s p => emitRecord p.1 p.2 false s) u).ctl = u.ctl := by
    induction l generalizing u with
    | nil => rfl
    | cons p l ih => rw [List.foldl_cons, ih, emitRecord_ctl]
  exact ⟨ctl .., emitted.roll, emitted.held⟩

theorem creditRound_ctl (s : State) : (creditRound s).ctl = s.ctl := by
  unfold creditRound
  cases s.track.roll with
  | none => rfl
  | some roll => cases s.disp.figures <;> rfl

theorem trackCompletion_round (s : State) :
    (trackCompletion s).ctl = s.ctl ∧ (trackCompletion s).track.roll = none ∧ (trackCompletion s).track.held = [] := by
  rw [trackCompletion_eq]
  obtain ⟨ctl, roll, held⟩ := emitHeld_round { creditRound s with track := { (creditRound s).track with roll := none } }
  exact ⟨ctl.trans (creditRound_ctl s), roll, held⟩

theorem marginCompletion_ctl (s : State) : (marginCompletion s).ctl = s.ctl := by
  dsimp only [marginCompletion]
  split_ifs
  · rfl
  · simp [raiseTlGl]

/-- A round's completion removes it, with its roll and the held accounts, and leaves the channels (R51, R149). -/
theorem completeRound_round {s : State} {r : Round} (h : s.ctl.round = some r) :
    (completeRound s).ctl = { s.ctl with failedMask := r.failed, round := none } ∧
      (completeRound s).track.roll = none ∧ (completeRound s).track.held = [] := by
  have completed : completeRound s = marginCompletion (trackCompletion
      { s with ctl := { s.ctl with failedMask := r.failed, round := none } }) := by
    unfold completeRound
    rw [h]
  obtain ⟨ctl, roll, held⟩ := trackCompletion_round { s with ctl := { s.ctl with failedMask := r.failed, round := none } }
  have margin := aside_marginCompletion (trackCompletion
    { s with ctl := { s.ctl with failedMask := r.failed, round := none } })
  rw [completed]
  exact ⟨(marginCompletion_ctl _).trans ctl, margin.roll.trans roll, margin.held.trans held⟩

theorem completeIfDone_none {s : State} (h : s.ctl.round = none) : completeIfDone s = s := by
  simp [completeIfDone, h]

theorem completeIfDone_some {s : State} {r : Round} (h : s.ctl.round = some r) :
    completeIfDone s = if r.outstanding = [] then completeRound s else s := by
  simp [completeIfDone, h]

theorem channels_completeIfDone (s : State) : (completeIfDone s).ctl.channels = s.ctl.channels := by
  cases h : s.ctl.round with
  | none => rw [completeIfDone_none h]
  | some r =>
    rw [completeIfDone_some h]
    split_ifs
    · rw [(completeRound_round h).1]
    · rfl

theorem roundOpen_completeIfDone {s : State} (h : RollOpen s) : RoundOpen (completeIfDone s) := by
  unfold RollOpen at h
  cases round : s.ctl.round with
  | none =>
    rw [round] at h
    rw [completeIfDone_none round]
    unfold RoundOpen
    rw [round]
    exact h
  | some r =>
    rw [round] at h
    rw [completeIfDone_some round]
    unfold RoundOpen
    split_ifs with done
    · obtain ⟨ctl, roll, held⟩ := completeRound_round round
      rw [ctl]
      exact ⟨roll, held⟩
    · rw [round]
      exact ⟨done, h⟩

theorem outWithin_completeIfDone (s : State) : OutWithin s (completeIfDone s) := by
  cases round : s.ctl.round with
  | none => rw [completeIfDone_none round]; exact .of_round_eq rfl
  | some r =>
    rw [completeIfDone_some round]
    split_ifs
    · intro q hq
      rw [(completeRound_round round).1] at hq
      cases hq
    · exact .of_round_eq rfl

/-- The round with another set of outstanding channels and other failed and participating ones. -/
theorem leaveOutstanding_some {s : State} {r : Round} (h : s.ctl.round = some r) (c : Nat) :
    leaveOutstanding c s = completeIfDone { s with ctl := { s.ctl with
      round := some { r with outstanding := r.outstanding.filter fun k => k ≠ c } } } := by
  simp [leaveOutstanding, h]

theorem leaveOutstanding_none {s : State} (h : s.ctl.round = none) (c : Nat) : leaveOutstanding c s = s := by
  simp [leaveOutstanding, h]

theorem channels_leaveOutstanding (c : Nat) (s : State) : (leaveOutstanding c s).ctl.channels = s.ctl.channels := by
  cases h : s.ctl.round with
  | none => rw [leaveOutstanding_none h]
  | some r => rw [leaveOutstanding_some h, channels_completeIfDone]

theorem step_leaveOutstanding (c : Nat) (s : State) : ChannelStep c s (leaveOutstanding c s) where
  rising := fun rising => by rwa [channels_leaveOutstanding]
  others := fun _ k _ => channelOf_congr (channels_leaveOutstanding c s) k
  opened := fun opened => by
    cases h : s.ctl.round with
    | none => rwa [leaveOutstanding_none h]
    | some r =>
      rw [leaveOutstanding_some h]
      refine roundOpen_completeIfDone ?_
      have roll := opened.rollOpen
      unfold RollOpen at roll
      rw [h] at roll
      exact roll
  within := by
    cases h : s.ctl.round with
    | none => rw [leaveOutstanding_none h]; exact .of_round_eq rfl
    | some r =>
      rw [leaveOutstanding_some h]
      refine .trans (fun q hq => ⟨r, h, fun k hk => ?_⟩) (outWithin_completeIfDone _)
      obtain rfl := Option.some.inj hq
      exact List.mem_of_mem_filter hk
  fits := fun _ fits => by rwa [channelOf_congr (channels_leaveOutstanding c s)]

theorem outstandingNot_leaveOutstanding (c : Nat) (s : State) : OutstandingNot c (leaveOutstanding c s) := by
  cases h : s.ctl.round with
  | none =>
    rw [leaveOutstanding_none h]
    exact fun r hr => by simp [h] at hr
  | some r =>
    rw [leaveOutstanding_some h]
    refine (outWithin_completeIfDone _).outstandingNot fun q hq hc => ?_
    obtain rfl := Option.some.inj hq
    simp at hc

theorem failOutstanding_cases (c : Nat) (s : State) :
    (s.ctl.round = none ∧ failOutstanding c s = s) ∨ ∃ r, s.ctl.round = some r ∧
      failOutstanding c s = leaveOutstanding c { s with ctl := { s.ctl with
        round := some { r with failed := setInsert r.failed c } } } := by
  unfold failOutstanding
  cases h : s.ctl.round with
  | none => exact .inl ⟨rfl, rfl⟩
  | some r => exact .inr ⟨r, rfl, rfl⟩

theorem leaveRound_cases (c : Nat) (s : State) :
    (s.ctl.round = none ∧ leaveRound c s = s) ∨ ∃ r, s.ctl.round = some r ∧
      leaveRound c s = leaveOutstanding c { s with ctl := { s.ctl with round := some { r with
        participating := r.participating.filter fun k => k ≠ c
        failed := r.failed.filter fun k => k ≠ c } } } := by
  unfold leaveRound
  cases h : s.ctl.round with
  | none => exact .inl ⟨rfl, rfl⟩
  | some r => exact .inr ⟨r, rfl, rfl⟩

/-- The round's other channels written beside the outstanding ones. -/
theorem step_setRound {s : State} {q r : Round} (round : s.ctl.round = some r) (out : q.outstanding = r.outstanding)
    (c : Nat) : ChannelStep c s { s with ctl := { s.ctl with round := some q } } where
  rising := id
  others := fun _ _ _ => rfl
  opened := fun opened => by
    unfold RoundOpen at opened ⊢
    rw [round] at opened
    dsimp only at opened ⊢
    rwa [out]
  within := fun p hp => ⟨r, round, fun k hk => by obtain rfl := Option.some.inj hp; rwa [← out]⟩
  fits := fun _ => id

theorem step_failOutstanding (c : Nat) (s : State) : ChannelStep c s (failOutstanding c s) := by
  rcases failOutstanding_cases c s with ⟨_, e⟩ | ⟨r, round, e⟩ <;> rw [e]
  · exact .refl c s
  · exact (step_setRound (q := { r with failed := setInsert r.failed c }) round rfl c).trans
      (step_leaveOutstanding _ _)

theorem outstandingNot_failOutstanding (c : Nat) (s : State) : OutstandingNot c (failOutstanding c s) := by
  rcases failOutstanding_cases c s with ⟨round, e⟩ | ⟨r, round, e⟩ <;> rw [e]
  · exact fun r hr => by simp [round] at hr
  · exact outstandingNot_leaveOutstanding _ _

theorem step_leaveRound (c : Nat) (s : State) : ChannelStep c s (leaveRound c s) := by
  rcases leaveRound_cases c s with ⟨_, e⟩ | ⟨r, round, e⟩ <;> rw [e]
  · exact .refl c s
  · exact (step_setRound (q := { r with
        participating := r.participating.filter fun k => k ≠ c
        failed := r.failed.filter fun k => k ≠ c }) round rfl c).trans (step_leaveOutstanding _ _)

theorem outstandingNot_leaveRound (c : Nat) (s : State) : OutstandingNot c (leaveRound c s) := by
  rcases leaveRound_cases c s with ⟨round, e⟩ | ⟨r, round, e⟩ <;> rw [e]
  · exact fun r hr => by simp [round] at hr
  · exact outstandingNot_leaveOutstanding _ _

theorem channels_leaveRound (c : Nat) (s : State) : (leaveRound c s).ctl.channels = s.ctl.channels := by
  rcases leaveRound_cases c s with ⟨_, e⟩ | ⟨r, _, e⟩ <;> rw [e]
  exact channels_leaveOutstanding ..

theorem channels_failOutstanding (c : Nat) (s : State) : (failOutstanding c s).ctl.channels = s.ctl.channels := by
  rcases failOutstanding_cases c s with ⟨_, e⟩ | ⟨r, _, e⟩ <;> rw [e]
  exact channels_leaveOutstanding ..

/-! ### Faults and exchange answers -/

theorem aside_raiseChannel (c : Nat) (s : State) : Aside s (raiseChannel c s) := by
  have onLink (touched : Bool) (l : Link) (t : State) : Aside t (if touched then raiseOn l .channel t else t) :=
    .ite (fun _ => aside_raiseOn ..) fun _ => .refl t
  dsimp only [raiseChannel]
  exact .trans (aside_raiseOn .tl .channel s) (.trans (onLink _ .fa _) (onLink _ .fb _))

theorem aside_emptySpan (c : Nat) (s : State) : Aside s (emptySpan c s) := { Aside.refl s with }

theorem step_faultChannel (c : Nat) (s : State) : ChannelStep c s (faultChannel c s) := by
  dsimp only [faultChannel]
  refine .trans (step_setChannel fun _ => ?_) (.trans ((aside_markEntries ..).channelStep c)
    (.trans ((aside_disturb ..).channelStep c) ((aside_raiseChannel ..).channelStep c)))
  simp [DiscoveryFits]

theorem step_setSticky (c : Nat) (f : FaultSet) (s : State) : ChannelStep c s (setSticky c f s) := by
  unfold setSticky
  split_ifs
  · exact .refl c s
  · exact .trans step_setChannel ((aside_raiseChannel ..).channelStep c)

theorem step_faultAtThree (c : Nat) (s : State) : ChannelStep c s (faultAtThree c s) :=
  .ite (fun _ => (step_setSticky ..).trans (step_faultChannel ..)) fun _ => .refl c s

theorem aside_goodReport (i bits : Nat) (s : State) : Aside s (goodReport i bits s) := by
  dsimp only [goodReport]
  cases (unitOf s i).state with
  | probing =>
    have event (gained lost : Prop) [Decidable gained] [Decidable lost] (t : State) :
        Aside t (if gained then contributionGained t else if lost then contributionLost i t else t) :=
      .ite (fun _ => aside_contributionGained _) fun _ => .ite (fun _ => aside_contributionLost ..) fun _ => .refl _
    exact .ite (fun _ => { Aside.refl s with }) fun _ => .trans (t := setUnit i _ s) (by exact { Aside.refl s with }) (event _ _ _)
  | ready => exact { Aside.refl s with }
  | lost => exact { Aside.refl s with }
  | empty => exact .refl s
  | rejected _ => exact .refl s

theorem aside_missingReport (i : Nat) (s : State) : Aside s (missingReport i s) := by
  dsimp only [missingReport]
  cases (unitOf s i).state with
  | probing => exact { Aside.refl s with }
  | ready =>
    have event (lost : Prop) [Decidable lost] (t : State) : Aside t (if lost then contributionLost i t else t) :=
      .ite (fun _ => aside_contributionLost ..) fun _ => .refl _
    exact .ite (fun _ => .trans (t := setUnit i _ s) (by exact { Aside.refl s with }) (event _ _)) fun _ => { Aside.refl s with }
  | lost => exact .refl s
  | empty => exact .refl s
  | rejected _ => exact .refl s

theorem aside_dropReport (c : Nat) (s : State) (p : Nat × DropSection) : Aside s (dropReport c s p) :=
  .ite (fun _ => .ite (fun _ => .trans (aside_goodReport ..) (by exact { Aside.refl (goodReport _ _ s) with }))
    fun _ => aside_missingReport ..) fun _ => .refl s

theorem step_copyIndication (c : Nat) (b : Bool) (s : State) : ChannelStep c s (copyIndication c b s) := by
  unfold copyIndication
  split_ifs
  · exact .refl c s
  · exact .trans step_setChannel ((aside_raiseChannel ..).channelStep c)

theorem step_dropReports (c : Nat) (l : List (Nat × DropSection)) (s : State) :
    ChannelStep c s (l.foldl (dropReport c) s) :=
  .foldl (fun s p => (aside_dropReport c s p).channelStep c) l s

theorem rounds_goodExchange (c : Nat) (contents : List Byte) (s : State) :
    RoundsKept s (goodExchange c contents s) := by
  dsimp only [goodExchange]
  split_ifs
  · refine ChannelStep.roundsKept (c := c) (.trans (step_copyIndication ..) (.trans (step_dropReports ..)
      (.trans (step_leaveOutstanding ..) (.trans (step_setSticky ..) (step_faultChannel ..))))) fun _ => .inl ?_
    exact ((step_setSticky ..).trans (step_faultChannel ..)).within.outstandingNot (outstandingNot_leaveOutstanding _ _)
  · refine ChannelStep.roundsKept (c := c) (.trans (step_copyIndication ..) (.trans (step_dropReports ..)
      (.trans step_setChannel (step_leaveOutstanding ..)))) fun _ => .inl ?_
    exact outstandingNot_leaveOutstanding _ _

theorem rounds_failedExchange (c : Nat) (outcome : ReplyOutcome) (s : State) :
    RoundsKept s (failedExchange c outcome s) := by
  dsimp only [failedExchange]
  refine ChannelStep.roundsKept (c := c) (.trans (step_setSticky c _ s) (.trans
    (.foldl (fun s d => (aside_missingReport (unitIndex c d) s).channelStep c) ..)
    (.trans step_setChannel (.trans (step_failOutstanding ..) (step_faultAtThree ..))))) fun _ => .inl ?_
  exact (step_faultAtThree ..).within.outstandingNot (outstandingNot_failOutstanding _ _)

theorem state_setSticky {s : State} (rising : Ascending s.ctl.channels) (c : Nat) (f : FaultSet) :
    (channelOf (setSticky c f s) c).state = (channelOf s c).state := by
  unfold setSticky
  split_ifs
  · rfl
  · rw [channelOf_congr (aside_raiseChannel ..).channels, channelOf_setChannel rising, if_pos rfl]

theorem step_countFailure (c : Nat) (outcome : ReplyOutcome) (s : State) :
    ChannelStep c s (countFailure c outcome s) := by
  dsimp only [countFailure]
  exact (step_setSticky ..).trans step_setChannel

theorem state_countFailure {s : State} (rising : Ascending s.ctl.channels) (c : Nat) (outcome : ReplyOutcome) :
    (channelOf (countFailure c outcome s) c).state = (channelOf s c).state := by
  dsimp only [countFailure]
  rw [channelOf_setChannel ((step_setSticky ..).rising rising), if_pos rfl]
  exact state_setSticky rising ..

theorem state_faultChannel {s : State} (rising : Ascending s.ctl.channels) (c : Nat) :
    (channelOf (faultChannel c s) c).state = .faulted := by
  dsimp only [faultChannel]
  rw [channelOf_congr (aside_raiseChannel ..).channels, channelOf_congr (aside_disturb ..).channels,
    markOnUnits, channelOf_congr (aside_markEntries ..).channels, channelOf_setChannel rising, if_pos rfl]

theorem rounds_rearmOutcome (c : Nat) (outcome : ReplyOutcome) (s : State) :
    RoundsKept s (rearmOutcome c outcome s) := by
  dsimp only [rearmOutcome]
  have counted := (step_countFailure c outcome s).trans (step_faultAtThree ..)
  split_ifs with good faulted
  · exact rounds_setChannel_calm rfl rfl
  · exact (counted.trans (step_leaveOutstanding ..)).roundsKept fun _ => .inl (outstandingNot_leaveOutstanding _ _)
  · refine counted.roundsKept fun h => .inr ?_
    have rising := (step_countFailure c outcome s).rising h.1
    unfold faultAtThree at faulted ⊢
    split_ifs at faulted ⊢
    · exact absurd (state_faultChannel ((step_setSticky ..).rising rising) c) faulted
    · exact state_countFailure h.1 ..

/-! ### Discovery -/

/-- Discovery goes on, fails or completes on a channel that no round waits for. -/
theorem step_setDiscovery {c : Nat} {s : State} (starting : (channelOf s c).state = .starting) (d : Discovery) :
    ChannelStep c s (setDiscovery c d s) :=
  step_setChannel fun _ => by simp [DiscoveryFits, starting]

theorem step_completeDiscovery (c : Nat) (s : State) : ChannelStep c s (completeDiscovery c s) :=
  .trans (step_setChannel fun _ => by simp [DiscoveryFits]) ((aside_raiseChannel ..).channelStep c)

theorem aside_rejectCatalogue (i : Nat) (reason : RejectReason) (s : State) : Aside s (rejectCatalogue i reason s) := { Aside.refl s with }

theorem aside_takeCatalogue (i : Nat) (cat : List Descriptor) (s : State) : Aside s (takeCatalogue i cat s) := by
  unfold takeCatalogue
  cases catalogueFault cat <;> exact { Aside.refl s with }

theorem step_nextDrop {c : Nat} {s : State} (starting : (channelOf s c).state = .starting) (d : Discovery) :
    ChannelStep c s (nextDrop c d s) :=
  .ite (fun _ => step_setDiscovery starting _) fun _ => step_completeDiscovery ..

theorem step_failedAttempt {c : Nat} {s : State} (starting : (channelOf s c).state = .starting) (d : Discovery) :
    ChannelStep c s (failedAttempt c d s) :=
  .ite (fun _ => step_setDiscovery starting _) fun _ => (step_setSticky ..).trans (step_faultChannel ..)

theorem step_discoveryOutcome {c : Nat} {s : State} (h : Rounds s) (outcome : ReplyOutcome) (contents : List Byte) :
    ChannelStep c s (discoveryOutcome c outcome contents s) := by
  unfold discoveryOutcome
  cases progress : (channelOf s c).discovery with
  | none => exact .refl c s
  | some d =>
    have starting : (channelOf s c).state = .starting := (h.fits c).1 (by rw [progress]; rfl)
    have onward {u : State} (aside : Aside s u) : ChannelStep c s (nextDrop c d u) :=
      (aside.channelStep c).trans (step_nextDrop (by rw [channelOf_congr aside.channels]; exact starting) d)
    dsimp only
    cases d.step with
    | arm => exact .ite (fun _ => step_setDiscovery starting _) fun _ => step_failedAttempt starting d
    | roster =>
      have written : ChannelStep c s (setChannel c { channelOf s c with roster := readDrops contents } s) :=
        step_setChannel
      have still : (channelOf (setChannel c { channelOf s c with roster := readDrops contents } s) c).state =
          .starting := by
        rw [channelOf_setChannel h.1, if_pos rfl]
        exact starting
      refine .ite (fun _ => ?_) fun _ => step_failedAttempt starting d
      dsimp only [takeRoster]
      exact written.trans (.ite (fun _ => step_completeDiscovery ..) fun _ => step_setDiscovery still _)
    | catalogue =>
      refine .ite (fun _ => ?_) fun _ => ?_
      · dsimp only [takePage]
        exact .ite (fun _ => .ite (fun _ => step_setDiscovery starting _) fun _ => onward (aside_rejectCatalogue ..))
          fun _ => onward (aside_takeCatalogue ..)
      · dsimp only [failedPage]
        exact .ite (fun _ => step_setDiscovery starting _) fun _ => onward (aside_rejectCatalogue ..)

theorem rounds_discoveryOutcome (c : Nat) (outcome : ReplyOutcome) (contents : List Byte) (s : State) :
    RoundsKept s (discoveryOutcome c outcome contents s) := fun h =>
  (step_discoveryOutcome h outcome contents).roundsKept (fun h => by
    cases progress : (channelOf s c).discovery with
    | none => exact .inr (by simp [discoveryOutcome, progress])
    | some d =>
      have starting : (channelOf s c).state = .starting := (h.fits c).1 (by rw [progress]; rfl)
      exact .inl ((step_discoveryOutcome h outcome contents).within.outstandingNot
        (h.outstandingNot (by simp [InRounds, starting])))) h

/-! ### Events on a channel's line -/

theorem rounds_handOutcome (c : Nat) (owner : FrameOwner) (outcome : ReplyOutcome) (contents : List Byte)
    (s : State) : RoundsKept s (handOutcome c owner outcome contents s) := by
  cases owner with
  | discovery => exact rounds_discoveryOutcome _ _ _ _
  | round =>
    dsimp only [handOutcome]
    split_ifs
    · exact rounds_goodExchange _ _ _
    · exact rounds_failedExchange _ _ _
  | rearm => exact rounds_rearmOutcome _ _ _
  | nobody => exact id

theorem rounds_setLine (c : Nat) (line : ChannelLine) (s : State) : RoundsKept s (setLine c line s) :=
  rounds_setChannel_calm rfl rfl

theorem rounds_endChannelSending (c : Nat) (s : State) : RoundsKept s (endChannelSending c s) := by
  unfold endChannelSending
  cases (channelOf s c).line with
  | free => exact id
  | sending frame owner wire =>
    dsimp only
    split_ifs <;> exact rounds_setLine _ _ _
  | awaiting frame owner wait => exact id

theorem rounds_takeAnswer (c : Nat) (chars : List RxChar) (s : State) : RoundsKept s (takeAnswer c chars s) := by
  unfold takeAnswer
  cases (channelOf s c).line with
  | free => exact id
  | sending frame owner wire => exact id
  | awaiting frame owner wait => exact (rounds_setLine _ _ _).trans (rounds_handOutcome _ _ _ _ _)

theorem rounds_takeReplyWait (c : Nat) (s : State) : RoundsKept s (takeReplyWait c s) := by
  unfold takeReplyWait
  cases (channelOf s c).line with
  | free => exact id
  | sending frame owner wire => exact id
  | awaiting frame owner wait => exact (rounds_setLine _ _ _).trans (rounds_handOutcome _ _ _ _ _)

theorem nextFrame_calm {r q : ChannelRec} {frame : ChannelFrame} {owner : FrameOwner}
    (h : nextFrame r = some (frame, owner, q)) : q.state = r.state ∧ q.discovery = r.discovery := by
  unfold nextFrame at h
  split_ifs at h
  · simp only [Option.some.injEq, Prod.mk.injEq] at h
    obtain ⟨-, -, rfl⟩ := h
    exact ⟨rfl, rfl⟩
  · simp only [Option.some.injEq, Prod.mk.injEq] at h
    obtain ⟨-, -, rfl⟩ := h
    exact ⟨rfl, rfl⟩
  · simp only [Option.some.injEq, Prod.mk.injEq] at h
    obtain ⟨-, -, rfl⟩ := h
    exact ⟨rfl, rfl⟩
  · split at h
    · simp only [Option.some.injEq, Prod.mk.injEq] at h
      obtain ⟨-, -, rfl⟩ := h
      exact ⟨rfl, rfl⟩
    · cases h

theorem rounds_kickLine (s : State) (c : Nat) : RoundsKept s (kickLine s c) := by
  rcases kickLine_cases s c with e | ⟨_, _, r, _, _, next, e⟩ <;> rw [e]
  · exact id
  · exact rounds_setChannel_calm (nextFrame_calm next).1 (nextFrame_calm next).2

theorem kept_rounds : Kept RoundsKept where
  refl := fun _ => id
  trans := .trans
  setLink := fun l _ _ => by cases l <;> exact id
  emptyChanges := fun _ => id
  kickLine := rounds_kickLine
  arbitrate := fun s => (aside_arbitrate s).roundsKept

/-! ### A round's beginning -/

theorem rounds_foldl_calm {α : Type} {f : State → α → State} (h : ∀ s a, RoundsKept s (f s a)) (l : List α)
    (s : State) : RoundsKept s (l.foldl f s) :=
  kept_rounds.foldl h l s

theorem mem_roundChannels {s : State} {c : Nat} : c ∈ roundChannels s ↔ c < 8 ∧ InRounds (channelOf s c) := by
  simp [roundChannels, InRounds]

theorem foldl_exchangeDue (cs : List Nat) (s : State) (rising : Ascending s.ctl.channels) :
    Ascending (cs.foldl exchangeDue s).ctl.channels ∧
      (cs.foldl exchangeDue s).ctl.round = s.ctl.round ∧ (cs.foldl exchangeDue s).track = s.track ∧
      ∀ k, channelOf (cs.foldl exchangeDue s) k =
        if k ∈ cs then { channelOf s k with exchangePending := true } else channelOf s k := by
  induction cs generalizing s with
  | nil => exact ⟨rising, rfl, rfl, fun k => rfl⟩
  | cons c cs ih =>
    obtain ⟨risingT, round, track, channel⟩ := ih (exchangeDue s c) (ascending_tableSet rising c _)
    refine ⟨risingT, round, track, fun k => ?_⟩
    rw [List.foldl_cons, channel, exchangeDue, channelOf_setChannel rising]
    by_cases hc : k = c <;> by_cases hk : k ∈ cs <;> simp [hc, hk]

theorem rounds_beginRound {s : State} (idle : s.ctl.round = none) : RoundsKept s (beginRound s) := by
  rintro ⟨rising, opened, discovery, -⟩
  dsimp only [beginRound]
  set u : State := { formRoll { s with disp := { s.disp with figures := some (formFigures s) } } with
    ctl := { (formRoll { s with disp := { s.disp with figures := some (formFigures s) } }).ctl with
      round := some { participating := roundChannels s, outstanding := roundChannels s, failed := [] } } } with hu
  have channelU (k : Nat) : channelOf u k = channelOf s k := rfl
  obtain ⟨risingT, round, track, channel⟩ := foldl_exchangeDue (roundChannels s) u rising
  have state (k : Nat) : (channelOf ((roundChannels s).foldl exchangeDue u) k).state = (channelOf s k).state := by
    rw [channel, channelU]
    split_ifs <;> rfl
  have progress (k : Nat) :
      (channelOf ((roundChannels s).foldl exchangeDue u) k).discovery = (channelOf s k).discovery := by
    rw [channel, channelU]
    split_ifs <;> rfl
  have roll : RollOpen ((roundChannels s).foldl exchangeDue u) := by
    unfold RollOpen
    rw [round, track]
    rfl
  refine ⟨by rwa [channels_completeIfDone], roundOpen_completeIfDone roll, fun k => ?_, fun q hq k hk => ?_⟩
  · rw [channelOf_congr (channels_completeIfDone _), state, progress]
    exact discovery k
  · obtain ⟨r, hr, within⟩ := outWithin_completeIfDone _ q hq
    rw [round] at hr
    obtain rfl := Option.some.inj hr
    rw [channelOf_congr (channels_completeIfDone _), state]
    exact (mem_roundChannels.1 (within k hk)).2

theorem rounds_takeExchangeTimer (s : State) : RoundsKept s (takeExchangeTimer s) := by
  dsimp only [takeExchangeTimer]
  split_ifs with runs flight
  · exact id
  · exact rounds_beginRound (s := { s with ctl := { s.ctl with exchangeTimer := some s.ctl.period } })
      (by simpa using flight)
  · exact id

/-! ### Requests on channels -/

/-- The named channels, none of which the round waits for, begin their discovery. -/
theorem rounds_startChannels {cs : List Nat} {s : State} (idle : ∀ c ∈ cs, OutstandingNot c s) :
    RoundsKept s (cs.foldl startChannel s) := by
  induction cs generalizing s with
  | nil => exact id
  | cons c cs ih =>
    have started : ChannelStep c s (startChannel s c) := by
      dsimp only [startChannel]
      refine .trans (step_setChannel fun _ => ?_) ((aside_raiseChannel ..).channelStep c)
      simp [DiscoveryFits]
    have rest : RoundsKept (startChannel s c) (cs.foldl startChannel (startChannel s c)) :=
      ih fun k hk => started.within.outstandingNot (idle k (List.mem_cons_of_mem _ hk))
    have first : RoundsKept s (startChannel s c) := started.roundsKept fun _ =>
      .inl (started.within.outstandingNot (idle c List.mem_cons_self))
    rw [List.foldl_cons]
    exact first.trans rest

theorem rounds_takeStart (l : Link) (c : List Byte) (s : State) : RoundsKept s (takeStart l c s).1 := by
  unfold takeStart
  split_ifs with wrong held
  · exact id
  · exact id
  · refine fun h => rounds_startChannels (fun k hk => h.outstandingNot ?_) h
    have stopped : (channelOf s k).state = .stopped := by
      simp only [allIn, Bool.not_eq_false, List.all_eq_true, decide_eq_true_eq] at wrong
      exact wrong k hk
    simp [InRounds, stopped]

/-- Channels that have no discovery progress take a state in rounds. -/
theorem rounds_foldl_state {f : State → Nat → State} {st : ChannelState} (part : st = .idling ∨ st = .running)
    (aside : ∀ s c, Aside (setChannel c { channelOf s c with state := st } s) (f s c)) {cs : List Nat} {s : State}
    (none : ∀ c ∈ cs, (channelOf s c).discovery = none) : RoundsKept s (cs.foldl f s) := by
  induction cs generalizing s with
  | nil => exact id
  | cons c cs ih =>
    intro h
    have progress := none c (List.mem_cons_self ..)
    have written : ChannelStep c s (f s c) :=
      .trans (step_setChannel fun _ => by rcases part with rfl | rfl <;> simp [DiscoveryFits, progress])
        ((aside s c).channelStep c)
    have at_ (k : Nat) : channelOf (f s c) k = if k = c then { channelOf s c with state := st } else channelOf s k := by
      rw [channelOf_congr (aside s c).channels, channelOf_setChannel h.1]
    refine ih (s := f s c) (fun k hk => ?_) (rounds_of_move h written.toChannelMove (written.fits h.1 (h.fits c))
      (.inr ?_))
    · rw [at_]
      split_ifs
      · exact progress
      · exact none k (List.mem_cons_of_mem _ hk)
    · rw [at_, if_pos rfl]
      exact part

theorem discovery_none_of_allIn {s : State} (h : Rounds s) {st : ChannelState} (notStarting : st ≠ .starting)
    {cs : List Nat} (all : ¬allIn s st cs = false) : ∀ c ∈ cs, (channelOf s c).discovery = none := fun k hk => by
  simp only [allIn, Bool.not_eq_false, List.all_eq_true, decide_eq_true_eq] at all
  have fits := h.fits k
  unfold DiscoveryFits at fits
  rw [all k hk] at fits
  cases progress : (channelOf s k).discovery with
  | none => rfl
  | some d => exact absurd (fits.1 (by rw [progress]; rfl)) notStarting

theorem aside_raiseOwed (p : Nat → Bool) (s : State) : Aside s (raiseOwed p s) := by
  dsimp only [raiseOwed]
  exact .trans (t := { s with fleet := _ }) (by exact { Aside.refl s with }) (.foldl (fun _ _ => aside_contributionLost ..) ..)

theorem rounds_takeEngage (l : Link) (c : List Byte) (s : State) : RoundsKept s (takeEngage l c s).1 := by
  unfold takeEngage
  split_ifs with wrong
  · exact id
  · refine fun h => ((aside_contributionGained _).trans (aside_raiseOwed ..)).roundsKept
      (rounds_foldl_state (.inr rfl) (fun s c => aside_raiseChannel c _) (discovery_none_of_allIn h (by simp) wrong) h)

theorem rounds_takeDisengage (l : Link) (c : List Byte) (s : State) : RoundsKept s (takeDisengage l c s).1 := by
  unfold takeDisengage
  split_ifs with wrong
  · exact id
  · refine fun h => rounds_foldl_state (.inl rfl) (fun s c => ?_) (discovery_none_of_allIn h (by simp) wrong) h
    dsimp only [disengageChannel]
    exact .trans (aside_raiseChannel ..) (.trans (aside_markEntries ..) (aside_disturb ..))

/-- STOP leaves a channel with neither discovery progress nor a place in the round (R40). -/
theorem rounds_stopChannel (s : State) (c : Nat) : RoundsKept s (stopChannel s c) := by
  dsimp only [stopChannel]
  split_ifs
  · exact id
  · intro h
    set u1 := setChannel c { channelOf s c with discovery := none, line := abandonLine (channelOf s c).line } s with e1
    have move1 : ChannelMove c s u1 := move_setChannel ..
    have none1 : (channelOf u1 c).discovery = none := by rw [e1, channelOf_setChannel h.1, if_pos rfl]
    have rising1 := move1.rising h.1
    set u2 := leaveRound c u1 with e2
    have move2 : ChannelMove c u1 u2 := (step_leaveRound ..).toChannelMove
    have none2 : (channelOf u2 c).discovery = none := by
      rw [e2, channelOf_congr (channels_leaveRound ..)]
      exact none1
    have out2 : OutstandingNot c u2 := outstandingNot_leaveRound _ _
    have rising2 := move2.rising rising1
    set u3 := setChannel c { channelOf u2 c with
      armPending := false, exchangePending := false, haltPending := true } u2 with e3
    have move3 : ChannelMove c u2 u3 := move_setChannel ..
    have none3 : (channelOf u3 c).discovery = none := by
      rw [e3, channelOf_setChannel rising2, if_pos rfl]
      exact none2
    have rising3 := move3.rising rising2
    have aside : Aside u3 (emptySpan c (disturb (fun i => channelOfUnit i == c)
        (markOnUnits (fun i => channelOfUnit i == c) u3))) :=
      (aside_markEntries ..).trans ((aside_disturb ..).trans (aside_emptySpan ..))
    set u4 := emptySpan c (disturb (fun i => channelOfUnit i == c)
      (markOnUnits (fun i => channelOfUnit i == c) u3)) with e4
    have move4 : ChannelMove c u3 u4 := (aside.channelStep c).toChannelMove
    have none4 : (channelOf u4 c).discovery = none := by rw [channelOf_congr aside.channels]; exact none3
    have rising4 := move4.rising rising3
    have move5 : ChannelMove c u4 (raiseChannel c (setChannel c { channelOf u4 c with
        sticky := FaultSet.none, failures := 0, roster := [], fault := false, state := .stopped } u4)) :=
      (move_setChannel ..).trans ((aside_raiseChannel ..).channelStep c).toChannelMove
    refine rounds_of_move h (move1.trans (move2.trans (move3.trans (move4.trans move5)))) ?_ (.inl ?_)
    · rw [channelOf_congr (aside_raiseChannel ..).channels, channelOf_setChannel rising4, if_pos rfl]
      simp [DiscoveryFits, none4]
    · exact (move3.trans (move4.trans move5)).within.outstandingNot out2

theorem rounds_takeStop (l : Link) (c : List Byte) (s : State) : RoundsKept s (takeStop l c s).1 :=
  rounds_foldl_calm rounds_stopChannel _ _

theorem rounds_takeOverride (l : Link) (c : List Byte) (s : State) : RoundsKept s (takeOverride l c s).1 := by
  unfold takeOverride
  cases overrideOf (readU c 0 1) with
  | none => exact id
  | some o =>
    dsimp only [putOverride]
    have raised : RoundsKept s (raiseOverride { s with disp := { s.disp with override := o } }) :=
      (aside_raiseOverride { s with disp := { s.disp with override := o } }).roundsKept
    split_ifs
    · exact id
    · have told (u : State) (c : Nat) : RoundsKept u (haltChannel u c) := rounds_setChannel_calm rfl rfl
      exact raised.trans (rounds_foldl_calm told _ _)
    · exact raised
    
theorem rounds_takeOf (q : Request) (l : Link) (c : List Byte) (s : State) : RoundsKept s (takeOf q l c s).1 := by
  have placed (r : TlRequest) : RoundsKept s (placeTl r s) := id
  by_cases offer : q = .offer
  · subst offer
    rcases takeOffer_state l c s with e | ⟨r, e⟩
    · exact (congrArg (RoundsKept s) e).mpr id
    · exact (congrArg (RoundsKept s) e).mpr (placed r)
  by_cases quote : q = .quote
  · subst quote
    rcases takeQuote_state l c s with e | ⟨r, e⟩
    · exact (congrArg (RoundsKept s) e).mpr id
    · exact (congrArg (RoundsKept s) e).mpr (placed r)
  by_cases aside : actsOnChannels q = false
  · exact (aside_takeOf aside offer quote l c s).roundsKept
  · cases q with
    | start => exact rounds_takeStart l c s
    | stop => exact rounds_takeStop l c s
    | engage => exact rounds_takeEngage l c s
    | disengage => exact rounds_takeDisengage l c s
    | override => exact rounds_takeOverride l c s
    | _ => exact absurd rfl aside

/-! ### The clock and the jobs -/

/-- Closing an account emits its record, or holds it while a round is in flight (R149). -/
theorem closeAccumulator_cases (t : Nat) (s : State) (p : Nat × Accumulator) : closeAccumulator t s p = s ∨
    closeAccumulator t s p = emitRecord p.1 p.2 false
      { s with track := { s.track with current := tableErase s.track.current p.1 } } ∨
    s.ctl.round ≠ none ∧ closeAccumulator t s p = { s with track := { s.track with
      current := tableErase s.track.current p.1, held := tableInsert s.track.held p.1 p.2 } } := by
  dsimp only [closeAccumulator]
  split_ifs
  · split
    · rename_i round _
      split_ifs
      · exact .inr (.inr ⟨by simp [round], rfl⟩)
      · exact .inr (.inl rfl)
    · exact .inr (.inl rfl)
  · exact .inl rfl

/-- An account is closed into the held ones only while a round is in flight (R149). -/
theorem closeAccumulator_round (t : Nat) (s : State) (p : Nat × Accumulator) :
    (closeAccumulator t s p).ctl = s.ctl ∧ (closeAccumulator t s p).track.roll = s.track.roll ∧
      (s.ctl.round = none → (closeAccumulator t s p).track.held = s.track.held) := by
  rcases closeAccumulator_cases t s p with e | e | ⟨flight, e⟩ <;> rw [e]
  · exact ⟨rfl, rfl, fun _ => rfl⟩
  · exact ⟨emitRecord_ctl .., (aside_emitRecord ..).roll, fun _ => (aside_emitRecord ..).held⟩
  · exact ⟨rfl, rfl, fun h => absurd h flight⟩

theorem rounds_closeAccumulators (t : Nat) (s : State) : RoundsKept s (closeAccumulators t s) := by
  refine rounds_foldl_calm (fun s p h => ?_) _ _
  obtain ⟨ctl, roll, held⟩ := closeAccumulator_round t s p
  obtain ⟨rising, opened, discovery, out⟩ := h
  refine ⟨by rwa [ctl], ?_, fun k => ?_, fun r hr k hk => ?_⟩
  · unfold RoundOpen at opened ⊢
    rw [ctl, roll]
    cases round : s.ctl.round with
    | none =>
      rw [round] at opened
      exact ⟨opened.1, (held round).trans opened.2⟩
    | some r =>
      rw [round] at opened
      exact opened
  · rw [channelOf_congr (congrArg Controller.channels ctl)]
    exact discovery k
  · rw [ctl] at hr
    rw [channelOf_congr (congrArg Controller.channels ctl)]
    exact out r hr k hk

theorem rounds_secondStep (s : State) : RoundsKept s (secondStep s) := by
  have boundary (u : State) : RoundsKept u (slotBoundary u) :=
    (aside_noteBoundary u).roundsKept.trans ((rounds_closeAccumulators _ _).trans
      ((aside_boundaryTables ..).roundsKept.trans (aside_openAccumulators ..).roundsKept))
  unfold secondStep
  split_ifs
  · exact id
  · exact id
  · exact id
  · exact boundary { s with time := { s.time with slot := s.time.slot + 1, second := 0 } }

theorem events_rounds : EventsKept RoundsKept where
  startTimers := fun _ => id
  takeTimeMark := fun s => by
    unfold takeTimeMark
    split_ifs
    · exact (aside_raiseTlGl .timeMark { s with time := _ }).roundsKept
    · exact rounds_secondStep s
  takeMarkWatch := fun s => by
    unfold takeMarkWatch
    split_ifs
    · dsimp only [enterHoldover]
      set u := secondStep (secondStep { s with time := { s.time with holdover := true, markWatch := none } }) with hu
      have twice : RoundsKept s u :=
        (rounds_secondStep { s with time := { s.time with holdover := true, markWatch := none } }).trans
          (rounds_secondStep _)
      exact twice.trans (t := { u with time := { u.time with holdoverTimer := some 1000 } })
        (aside_raiseTlGl .timeMark { u with time := { u.time with holdoverTimer := some 1000 } }).roundsKept
    · exact id
  takeHoldoverSecond := fun s => by
    unfold takeHoldoverSecond
    split_ifs
    · exact rounds_secondStep s
    · exact id
  endChannelSending := rounds_endChannelSending
  takeAnswer := rounds_takeAnswer
  takeReplyWait := rounds_takeReplyWait
  takeExchangeTimer := rounds_takeExchangeTimer
  sampleByte := fun s b => (aside_sampleByte s b).roundsKept
  dropSampleBytes := fun _ => id
  takeFrequencyWatch := fun s => (aside_takeFrequencyWatch s).roundsKept
  takeSilence := fun s => (aside_takeSilence s).roundsKept
  takeReplanComplete := fun s => by
    unfold takeReplanComplete
    cases s.eval.job with
    | none => exact id
    | some j =>
      dsimp only
      cases j.kind with
      | quote q => exact id
      | offer o => exact id
      | replan n e => exact (aside_completeReplan j n e s).roundsKept
  takeTlComplete := fun s => by
    have answered (code : AnswerCode) (result : List Byte) (u : State) :
        RoundsKept u (dropJob (answerTl code result u)) := by
      unfold answerTl
      cases (linkOf u .tl).inProcess <;> exact id
    unfold takeTlComplete
    cases s.eval.job with
    | none => exact id
    | some j =>
      dsimp only
      cases j.kind with
      | replan n e => exact id
      | quote q => exact answered _ _ _
      | offer o =>
        dsimp only [completeOffer]
        cases offerOutcome j o with
        | error code => exact answered _ _ _
        | ok booked =>
          dsimp only [bookOffer]
          split_ifs
          · exact answered _ _ _
          · cases lowestFreeEntry s with
            | none => exact answered _ _ _
            | some n => exact (aside_admitOffer j o n booked s).roundsKept.trans (answered _ _ _)

theorem rounds_heldInReset (s : State) : Rounds (heldInReset s) := by
  refine ⟨by simp [heldInReset, State.reset, Ascending], by simp [RoundOpen, heldInReset, State.reset],
    fun c => ?_, fun r hr => ?_⟩
  · simp [channelOf, heldInReset, State.reset, tableGet, tableFind, ChannelRec.reset]
  · simp [heldInReset, State.reset] at hr

/-- Settles O59: every operation on a channel is a `ChannelMove` that leaves the channel fit for its round. -/
theorem everyStepKeepsTheRounds : Obligations.EveryStepKeepsTheRounds := by
  intro s t ⟨_, _, ⟨rising, _⟩, _⟩ opened consistent e
  have kept : Rounds t := step_keeps rounds_heldInReset (fun _ _ => id)
    (fun _ _ _ e notReset => kept_rounds.exec events_rounds rounds_takeOf e notReset) ⟨rising, opened, consistent⟩ e
  exact kept.2

end Sys2Proof.Machine

/-! PROOF. The step and reset, holdover, and the first setting of the time (R3 to R5, R10). -/

namespace Sys2Proof.Machine

/-! ### The step and reset -/

/-- Settles O1: by the equations of `step`. -/
theorem stepRunsTheFrontCommand : Obligations.StepRunsTheFrontCommand := by
  refine ⟨fun c rest s front => ?_, fun s idle => ?_⟩
  · simp [step, front]
  · simp [step, idle]

/-- Settles O2: but for the three timers that run, the state after reset is the one held in reset. -/
theorem resetMeetsEveryInvariant : Obligations.ResetMeetsEveryInvariant :=
  have rounds := rounds_heldInReset State.reset
  ⟨tablesCanonical_heldInReset State.reset, timeInRange_heldInReset State.reset,
    settingsInRange_heldInReset State.reset, ownerLimits_heldInReset State.reset,
    awardsWithinOffers_heldInReset State.reset, queuesBounded_heldInReset State.reset,
    by simp [SharesNumbered, State.reset], mapsDisjoint_heldInReset State.reset, one_heldInReset State.reset,
    rounds.2.1, rounds.2.2, marginConsistent_heldInReset State.reset⟩

/-- While the reset line is asserted no command but RESET and the release has an effect (log 2). -/
theorem exec_of_resetHeld {i : Instr} {s : State} (held : s.resetHeld = true) (notReset : i ≠ .reset)
    (notRelease : i ≠ .releaseOfReset) : exec i s = .next s := by
  have idle (f : State → State) : effect f s = .next s := if_pos held
  rcases command_cases i with ⟨q, l, tag, c, rfl⟩ | other
  · rw [exec_commandOf, idle]
  · cases other with
    | reset => exact absurd rfl notReset
    | releaseOfReset => exact absurd rfl notRelease
    | markWatchExpiry => exact if_pos held
    | _ => exact if_pos held

theorem linkOf_heldInReset (s : State) (l : Link) : linkOf (heldInReset s) l = LinkRec.reset := by
  cases l <;> rfl

/-- Settles O3: RESET's state is written out, and outside RESET the reset line decides each command. -/
theorem resetAndItsRelease : Obligations.ResetAndItsRelease := by
  refine ⟨fun s => ⟨heldInReset s, exec_reset s, rfl, ⟨fun i => rfl, rfl, fun g => rfl⟩,
    ⟨rfl, rfl, rfl, rfl, rfl, rfl, rfl⟩, ⟨fun k => rfl, rfl, rfl, rfl, rfl, rfl, rfl⟩,
    ⟨rfl, rfl, rfl, fun p => by cases p <;> rfl⟩, ⟨rfl, rfl, rfl, rfl, rfl, rfl, rfl, rfl⟩,
    ⟨rfl, rfl, rfl, rfl, rfl, rfl, rfl, rfl, rfl, rfl, rfl⟩, ⟨rfl, rfl, rfl, rfl, rfl, rfl⟩,
    ⟨fun d hd => ?margin, rfl, rfl, rfl, rfl, rfl, rfl, rfl⟩,
    ⟨linkOf_heldInReset s, rfl, rfl, fun i => ?map⟩, rfl, rfl⟩, fun s held => ?asserted, fun s free => ?released,
    fun i s held notReset notRelease => exec_of_resetHeld held notReset notRelease⟩
  case margin => rcases hd with rfl | rfl <;> rfl
  case map => simp [heldInReset, State.reset, UnitMap.reset]
  case asserted => exact congrArg Host.Outcome.next (if_pos held)
  case released => exact congrArg Host.Outcome.next (if_neg (by simp [free]))

/-! ### Holdover -/

theorem exec_markWatchExpiry {s : State} (released : s.resetHeld = false) :
    exec .markWatchExpiry s = .next (settleWith s.time.markWatch.isSome (takeMarkWatch s)) :=
  if_neg (by simp [released])

theorem exec_holdoverSecond {s : State} (released : s.resetHeld = false) :
    exec .holdoverSecondTimerExpiry s = .next (settle (takeHoldoverSecond s)) :=
  effect_of_released released _

/-- Settles O5: by the two timers' events, and the second steps within a slot. -/
theorem holdoverCountsOnTheOscillator : Obligations.HoldoverCountsOnTheOscillator := by
  intro s released
  rw [exec_markWatchExpiry released, exec_holdoverSecond released]
  refine ⟨fun runs => ?enters, fun runs set early => ?early, fun idle => ?noWatch, fun runs set early => ?second,
    fun runs => ?step, fun idle => ?noTimer⟩
  case enters => rw [takeMarkWatch, if_pos runs, runs]; rfl
  case early =>
    have first := secondStep_within_slot (s := { s with time := { s.time with holdover := true, markWatch := none } })
      set (show s.time.second < 899 by omega)
    have second := secondStep_within_slot (s := { s with time := { s.time with
      holdover := true, markWatch := none, second := s.time.second + 1 } }) set (show s.time.second + 1 < 899 by omega)
    rw [takeMarkWatch, if_pos runs, runs]
    dsimp only [enterHoldover]
    rw [first, second]
  case noWatch => simp [takeMarkWatch, idle, settle]
  case second => simp [takeHoldoverSecond, runs, secondStep_within_slot set early]
  case step => simp [takeHoldoverSecond, runs]
  case noTimer => simp [takeHoldoverSecond, idle]

/-! ### TIME -/

/-- Settles O6: by the branches of the Time Base's answer. -/
theorem timeIsSetOnce : Obligations.TimeIsSetOnce := by
  intro tag c s h hc
  have answer {t : State} {code : AnswerCode} {result : List Byte}
      (taken : takeTime .gl c (frameComplete .gl s) = (t, .answer code result)) :
      exec (.time .gl tag c) s = .next (settle (answered .time .gl tag code result t)) :=
    receiveRequest_answered h (frameRefusal_master s (.inr rfl) rfl hc rfl) taken tag
  intro _ slot v timer
  split_ifs with query late unset tooLate other
  · exact answer (if_pos query)
  · exact answer ((if_neg query).trans (if_pos late))
  · exact answer ((if_neg query).trans ((if_neg late).trans ((if_pos unset).trans (if_pos tooLate))))
  · exact answer ((if_neg query).trans ((if_neg late).trans ((if_pos unset).trans (if_neg tooLate))))
  · exact answer ((if_neg query).trans ((if_neg late).trans ((if_neg unset).trans (if_pos other))))
  · exact answer ((if_neg query).trans ((if_neg late).trans ((if_neg unset).trans (if_neg other))))

end Sys2Proof.Machine

/-! PROOF. What marks entries and disturbs the running job, one event after another; and the requests on the unit table
and on channels that do so: FEEDER, a new lost limit, SETTINGS, START, ENGAGE and DISENGAGE (R17, R24, R34, R41, R42). -/

namespace Sys2Proof.Machine

/-! ### Events one after another -/

/-- From `s` to `t` the entries that satisfy `p` are marked and the job learns of an event on the units of `d`; the
entries and the records stay as they are. -/
structure Marked (s t : State) (p : Nat → Entry → Prop) (d : Nat → Bool) : Prop where
  entries : t.book.entries = s.book.entries
  shares : t.shares = s.shares
  only : MarksOnly s t
  marked : NewlyMarked s t p
  disturbs : Disturbs s t d

theorem Disturbs.trans {s t u : State} {d e : Nat → Bool} (h : Disturbs s t d) (g : Disturbs t u e) :
    Disturbs s u (fun i => d i || e i) := by
  unfold Disturbs at *
  have either (l : List Nat) : l.any (fun i => d i || e i) = (l.any d || l.any e) := by
    induction l with
    | nil => rfl
    | cons i l ih => simp only [List.any_cons, ih, Bool.or_assoc, Bool.or_left_comm]
  rw [g, h, Option.map_map]
  refine congrFun (congrArg Option.map (funext fun j => ?_)) s.eval.job
  dsimp only [Function.comp]
  rw [either, Bool.or_assoc]

theorem disturbs_nothing {s t : State} (h : t.eval.job = s.eval.job) : Disturbs s t (fun _ => false) := by
  have nothing (l : List Nat) : l.any (fun _ => false) = false := by simp
  rw [Disturbs, h]
  cases s.eval.job with
  | none => rfl
  | some j => simp only [nothing, Bool.or_false, Option.map_some]

namespace Marked

theorem trans {s t u : State} {p q : Nat → Entry → Prop} {d e : Nat → Bool} (h : Marked s t p d) (g : Marked t u q e) :
    Marked s u (fun n x => p n x ∨ q n x) (fun i => d i || e i) where
  entries := g.entries.trans h.entries
  shares := g.shares.trans h.shares
  only := h.only.trans g.only
  marked := fun n => by
    rw [g.marked n, h.marked n, h.entries, or_assoc, ← exists_or]
    refine or_congr_right (exists_congr fun x => ?_)
    tauto
  disturbs := h.disturbs.trans g.disturbs

/-- The same events described in other words. -/
theorem congr {s t : State} {p q : Nat → Entry → Prop} {d e : Nat → Bool} (h : Marked s t p d)
    (marks : ∀ n x, p n x ↔ q n x) (units : ∀ i, d i = e i) : Marked s t q e := by
  obtain rfl : p = q := funext fun n => funext fun x => propext (marks n x)
  obtain rfl : d = e := funext units
  exact h

/-- Nothing that marks or disturbs. -/
theorem still {s t : State} (entries : t.book.entries = s.book.entries) (shares : t.shares = s.shares)
    (eval : t.eval = s.eval) : Marked s t (fun _ _ => False) (fun _ => false) where
  entries := entries
  shares := shares
  only := by rw [MarksOnly, eval]; exact ⟨rfl, rfl⟩
  marked := fun n => by simp [eval]
  disturbs := disturbs_nothing (by rw [eval])

end Marked

theorem marked_markOnUnits (p : Nat → Bool) (s : State) :
    Marked s (markOnUnits p s) (fun n _ => ∃ r ∈ s.shares, r.entry = n ∧ p r.unit = true) (fun _ => false) where
  entries := rfl
  shares := rfl
  only := ⟨rfl, rfl⟩
  marked := newlyMarked_markOnUnits p s
  disturbs := disturbs_nothing rfl

theorem marked_contributionGained (s : State) :
    Marked s (contributionGained s) (fun _ e => e.uncovered ≠ 0) (fun _ => false) where
  entries := rfl
  shares := rfl
  only := ⟨rfl, rfl⟩
  marked := newlyMarked_contributionGained s
  disturbs := disturbs_nothing rfl

theorem marked_disturb (p : Nat → Bool) (s : State) : Marked s (disturb p s) (fun _ _ => False) p where
  entries := by rw [disturb_eq]
  shares := by rw [disturb_eq]
  only := marksOnly_disturb p s
  marked := fun n => by simp [disturb_replans]
  disturbs := disturbs_disturb p s

theorem marked_contributionLost (i : Nat) (s : State) :
    Marked s (contributionLost i s) (fun n _ => ∃ r ∈ s.shares, r.entry = n ∧ r.unit = i) (fun k => k == i) :=
  ((marked_markOnUnits (fun k => k == i) s).trans (marked_disturb (fun k => k == i) _)).congr
    (fun n x => by simp) (fun k => by simp)

/-- Events on the units that `q` names for each number of a list, one after another. -/
theorem marked_foldl {f : State → Nat → State} {q : Nat → Nat → Bool} (one : ∀ s i,
    Marked s (f s i) (fun n _ => ∃ r ∈ s.shares, r.entry = n ∧ q i r.unit = true) (q i)) (is : List Nat) (s : State) :
    Marked s (is.foldl f s) (fun n _ => ∃ r ∈ s.shares, r.entry = n ∧ ∃ i ∈ is, q i r.unit = true)
      (fun k => is.any fun i => q i k) := by
  induction is generalizing s with
  | nil => exact (Marked.still rfl rfl rfl).congr (fun n x => by simp) (fun k => rfl)
  | cons i is ih =>
    have first := one s i
    refine (first.trans (ih (f s i))).congr (fun n x => ?_) (fun k => rfl)
    rw [first.shares, ← exists_or]
    refine exists_congr fun r => ?_
    simp only [List.mem_cons, exists_eq_or_imp]
    tauto

/-- The loss of several units marks the entries with a record on one of them. -/
theorem marked_foldl_contributionLost (is : List Nat) (s : State) :
    Marked s (is.foldl (fun s i => contributionLost i s) s)
      (fun n _ => ∃ r ∈ s.shares, r.entry = n ∧ r.unit ∈ is) (fun k => is.contains k) :=
  (marked_foldl (f := fun s i => contributionLost i s) (q := fun i k => k == i)
    (fun s i => (marked_contributionLost i s).congr (fun n x => by simp) fun k => rfl) is s).congr
    (fun n x => by simp) (fun k => List.contains_eq_any_beq.symm)

/-- An event on units changes the Evaluator alone. -/
theorem disturb_frame (p : Nat → Bool) (s : State) : disturb p s = { s with eval := (disturb p s).eval } := by
  rw [disturb_eq]

theorem contributionLost_frame (i : Nat) (s : State) :
    contributionLost i s = { s with eval := (contributionLost i s).eval } := by
  unfold contributionLost
  rw [disturb_eq]
  rfl

theorem foldl_contributionLost_frame (is : List Nat) (s : State) :
    is.foldl (fun s i => contributionLost i s) s =
      { s with eval := (is.foldl (fun s i => contributionLost i s) s).eval } := by
  induction is generalizing s with
  | nil => rfl
  | cons i is ih =>
    rw [List.foldl_cons, ih, contributionLost_frame]

/-! ### FEEDER (R23, R24) -/

/-- A request of the operator's link that no check of its frame refuses ends with the answer its block gives. -/
theorem exec_feeder_answered {c : List Byte} {s t : State} {code : AnswerCode} {result : List Byte}
    (h : CanTake s .gl) (hc : c.length = 6)
    (taken : takeFeeder .gl c (frameComplete .gl s) = (t, .answer code result)) (tag : Byte) :
    exec (.feeder .gl tag c) s = .next (settle (answered .feeder .gl tag code result t)) :=
  receiveRequest_answered h (frameRefusal_master s (.inr rfl) rfl hc rfl) taken tag

theorem feederOf_setFeeder {s : State} (rising : Ascending s.fleet.feeders) (g k : Nat) (f : FeederLimits) :
    feederOf (setFeeder g f s) k = if k = g then f else feederOf s k := by
  show tableGet FeederLimits.reset (tableSet FeederLimits.reset s.fleet.feeders g f) k = _
  rw [tableGet_tableSet rising]
  rfl

/-- A lowering marks the entries with a record on the group that ends after the current slot. -/
theorem marked_feederLowered (g : Nat) (s : State) :
    Marked s (feederLowered g s)
      (fun n _ => ∃ r ∈ s.shares, r.entry = n ∧ (unitOf s r.unit).feeder = g ∧ s.time.slot < r.last)
      (fun i => (unitOf s i).feeder == g) := by
  have marks : Marked s (markEntries (entriesWithRecord s fun r =>
      (unitOf s r.unit).feeder == g && decide (s.time.slot < r.last)) s)
      (fun n _ => ∃ r ∈ s.shares, r.entry = n ∧ (unitOf s r.unit).feeder = g ∧ s.time.slot < r.last)
      (fun _ => false) :=
    { entries := rfl, shares := rfl, only := ⟨rfl, rfl⟩, disturbs := disturbs_nothing rfl
      marked := fun n => by
        rw [mem_markEntries, mem_entriesWithRecord, or_comm]
        simp }
  exact (marks.trans (marked_disturb _ _)).congr (fun n x => by simp) (fun k => by simp)

theorem feederLowered_frame (g : Nat) (s : State) :
    feederLowered g s = { s with eval := (feederLowered g s).eval } := by
  unfold feederLowered
  rw [disturb_eq]
  rfl

/-- Replacing a group's limits marks and disturbs where one of them falls. -/
theorem marked_writeFeeder (g : Nat) (f : FeederLimits) (s : State) :
    Marked s (writeFeeder g f s) (fun n _ => (f.exportKw < (feederOf s g).exportKw ∨
      f.importKw < (feederOf s g).importKw) ∧
        ∃ r ∈ s.shares, r.entry = n ∧ (unitOf s r.unit).feeder = g ∧ s.time.slot < r.last)
      (fun i => decide (f.exportKw < (feederOf s g).exportKw ∨ f.importKw < (feederOf s g).importKw) &&
        (unitOf s i).feeder == g) := by
  have set : Marked s (setFeeder g f s) (fun _ _ => False) (fun _ => false) := .still rfl rfl rfl
  dsimp only [writeFeeder]
  split_ifs with lower
  · exact (set.trans (marked_feederLowered g _)).congr (fun n x => by simp [lower]) (fun k => by simp [lower])
  · exact set.congr (fun n x => by simp [lower]) (fun k => by simp [lower])

theorem writeFeeder_frame (g : Nat) (f : FeederLimits) (s : State) :
    writeFeeder g f s = { setFeeder g f s with eval := (writeFeeder g f s).eval } := by
  dsimp only [writeFeeder]
  split_ifs
  · exact feederLowered_frame g _
  · rfl

/-- Settles O10: by the three answers of the unit table, and what a lowering marks. -/
theorem feederReplacesTheLimits : Obligations.FeederReplacesTheLimits := by
  intro tag c s h hc u g ex im
  refine ⟨fun out => ?_, fun within query => ?_, fun within set => ⟨writeFeeder g ⟨ex, im⟩ u, ?_, ?_⟩⟩
  · exact exec_feeder_answered h hc (if_pos out) tag
  · exact exec_feeder_answered h hc ((if_neg (not_lt.2 within)).trans (if_pos query)) tag
  · exact exec_feeder_answered h hc ((if_neg (not_lt.2 within)).trans (if_neg (by simp [set]))) tag
  · have marks := marked_writeFeeder g ⟨ex, im⟩ u
    have frame := writeFeeder_frame g ⟨ex, im⟩ u
    have fleet : (writeFeeder g ⟨ex, im⟩ u).fleet = (setFeeder g ⟨ex, im⟩ u).fleet := by rw [frame]
    refine ⟨by rw [frame]; rfl, by rw [fleet]; rfl, by rw [fleet]; rfl,
      marks.only, fun tables k => ?_, ?_⟩
    · unfold feederOf
      rw [fleet]
      exact feederOf_setFeeder (s := u) tables.2.1.1 g k _
    · exact marks.marked

/-! ### A new lost limit and SETTINGS (R17, R43, R90) -/

theorem underLimit_eq (limit : Nat) (u : UnitRec) :
    underLimit limit u =
      if (u.state = .probing ∨ u.state = .ready) ∧ limit ≤ u.miss then { u with state := .lost, miss := limit }
      else if u.state = .lost ∧ limit < u.miss then { u with miss := limit }
      else u := by
  unfold underLimit
  cases state : u.state <;> simp

theorem unitOf_congr {s t : State} (h : t.fleet = s.fleet) (i : Nat) : unitOf t i = unitOf s i := by
  unfold unitOf
  rw [h]

/-- The listed units that satisfy a test which no unlisted one satisfies. -/
theorem mem_unitsWhere {s : State} (rising : Ascending s.fleet.units) (p : Nat → UnitRec → Bool)
    (unlisted : ∀ i, p i UnitRec.reset = false) (i : Nat) :
    i ∈ (s.fleet.units.filter fun q => p q.1 q.2).map Prod.fst ↔ p i (unitOf s i) = true := by
  have read (v : UnitRec) (h : (i, v) ∈ s.fleet.units) : unitOf s i = v := by
    simp [unitOf, tableGet, tableFind_of_mem rising h]
  constructor
  · intro h
    obtain ⟨⟨k, v⟩, hq, rfl⟩ := List.mem_map.1 h
    obtain ⟨listed, holds⟩ := List.mem_filter.1 hq
    rwa [read v listed]
  · intro holds
    cases found : tableFind s.fleet.units i with
    | none =>
      rw [show unitOf s i = UnitRec.reset by simp [unitOf, tableGet, found], unlisted] at holds
      cases holds
    | some v =>
      have listed := tableFind_mem found
      rw [read v listed] at holds
      exact List.mem_map.2 ⟨(i, v), List.mem_filter.2 ⟨listed, holds⟩, rfl⟩

/-- A unit that contributes is READY. -/
theorem ready_of_contributing {s : State} {i : Nat} (h : contributing s i = true) : (unitOf s i).state = .ready := by
  unfold contributing at h
  simp only [Bool.and_eq_true, decide_eq_true_eq] at h
  exact h.1.1

/-- Settles O14: the units written are those of `underLimit`, and each contributing one taken to LOST loses its
contribution. -/
theorem lostLimitTakesUnits : Obligations.LostLimitTakesUnits := by
  intro limit s tables
  have rising := tables.1.1
  dsimp only [applyLostLimit]
  set gone := (s.fleet.units.filter fun p =>
    contributing s p.1 && decide ((underLimit limit p.2).state = .lost)).map Prod.fst with hgone
  set u : State := { s with fleet := { s.fleet with
    lostLimit := limit, units := tableMap UnitRec.reset (fun _ u => underLimit limit u) s.fleet.units } }
  have frame := foldl_contributionLost_frame gone u
  have marks := marked_foldl_contributionLost gone u
  have mem_gone (i : Nat) : i ∈ gone ↔ contributing s i = true ∧ limit ≤ (unitOf s i).miss := by
    rw [hgone, mem_unitsWhere rising (fun i v => contributing s i && decide ((underLimit limit v).state = .lost))
      (fun i => by simp [underLimit, UnitRec.reset])]
    simp only [Bool.and_eq_true, decide_eq_true_eq, underLimit_eq]
    refine and_congr_right fun contributes => ?_
    by_cases far : limit ≤ (unitOf s i).miss <;> simp [ready_of_contributing contributes, far]
  refine ⟨fun i => ?_, by rw [frame], by rw [frame], by rw [frame], fun n => ?_⟩
  · rw [unitOf_congr (s := u) (by rw [frame])]
    exact (tableGet_tableMap (fun _ u => underLimit limit u) rising (fun _ => rfl) i).trans (underLimit_eq ..)
  · refine (marks.marked n).trans (or_congr_right (exists_congr fun e => ?_))
    simp only [mem_gone]
    exact Iff.rfl

/-- A changed period finds a channel that is not STOPPED (R43; log 12). -/
theorem periodHeld_iff (r : SettingsReq) (s : State) : periodHeld r s = true ↔
    r.period ≠ 0 ∧ r.period ≠ s.ctl.period ∧ ∃ k < 8, (channelOf s k).state ≠ .stopped := by
  unfold periodHeld orKeep
  by_cases keep : r.period = 0 <;> simp [keep]

/-- Settles O13: by the refusals of `takeSettings` and the state `writeSettings` stores. -/
theorem settingsAreStored : Obligations.SettingsAreStored := by
  refine ⟨fun s => ?_, ?_⟩
  · unfold settingsForm jobCode
    cases s.eval.job with
    | none => simp
    | some j => cases k : j.kind <;> simp [k]
  intro tag c s h hc
  have answer {t : State} {code : AnswerCode} {result : List Byte}
      (taken : takeSettings .tl c (frameComplete .tl s) = (t, .answer code result)) :
      exec (.settings .tl tag c) s = .next (settle (answered .settings .tl tag code result t)) :=
    receiveRequest_answered h (frameRefusal_master s (.inl rfl) rfl hc rfl) taken tag
  intro u change hb q p w lost bad held p' U T
  have out_iff : settingsOutOfRange (readSettings c) = true ↔ bad := by
    rw [settingsOutOfRange_iff]
    unfold SettingsReqFits
    have holdback : (change = true → hb ≤ 200) ↔ ¬(change = true ∧ 200 < hb) := by
      rw [not_and, not_lt]
    show ¬((change = true → hb ≤ 200) ∧ _) ↔ _
    rw [holdback, Classical.not_and_iff_not_or_not, not_not]
    refine or_congr .rfl ?_
    dsimp only [readSettings]
    simp only [q, p, w, lost]
    omega
  have held_iff : periodHeld (readSettings c) u = true ↔ held := by
    rw [periodHeld_iff]
    simp [held, readSettings, u, p]
  have written : writeSettings (readSettings c) u = T := by
    have stored : writePeriod (readSettings c) (writeHoldback (readSettings c) u) = U := by
      dsimp only [writePeriod, writeHoldback, U]
      simp only [ne_eq, ite_not]
      rfl
    dsimp only [writeSettings]
    rw [stored]
    rfl
  refine ⟨fun refused => ?_, fun fits refused => ?_, fun fits free => ?_⟩
  · exact answer (if_pos (out_iff.2 refused))
  · exact answer ((if_neg (mt out_iff.1 fits)).trans (if_pos (held_iff.2 refused)))
  · refine answer ((if_neg (mt out_iff.1 fits)).trans ((if_neg (mt held_iff.1 free)).trans ?_))
    rw [written]
    rfl

end Sys2Proof.Machine

/-! PROOF. LIST's reading of the book (R78), and the requests on channels that judge their whole mask: START, ENGAGE and
DISENGAGE (R34, R41, R42). -/

namespace Sys2Proof.Machine

/-! ### The book in ascending first slot and entry number (R78) -/

section Sorting

variable {α : Type} {le : α → α → Bool}

theorem insertBy_perm (v : α) (l : List α) : (insertBy le v l).Perm (v :: l) := by
  induction l with
  | nil => exact .refl _
  | cons w t ih =>
    unfold insertBy
    split_ifs
    · exact (ih.cons w).trans (.swap v w t)
    · exact .refl _

theorem foldl_insertBy_perm (l acc : List α) : (l.foldl (fun acc v => insertBy le v acc) acc).Perm (l ++ acc) := by
  induction l generalizing acc with
  | nil => exact .refl _
  | cons v l ih =>
    exact (ih _).trans ((List.Perm.append_left l (insertBy_perm v acc)).trans List.perm_middle)

theorem sortBy_perm (l : List α) : (sortBy le l).Perm l :=
  (foldl_insertBy_perm l []).trans (by rw [List.append_nil])

theorem insertBy_sorted (total : ∀ a b, le a b = true ∨ le b a = true)
    (trans : ∀ a b c, le a b = true → le b c = true → le a c = true) (v : α) {l : List α}
    (h : l.Pairwise fun a b => le a b = true) : (insertBy le v l).Pairwise fun a b => le a b = true := by
  induction l with
  | nil => simp [insertBy]
  | cons w t ih =>
    obtain ⟨hw, ht⟩ := List.pairwise_cons.1 h
    unfold insertBy
    split_ifs with before
    · refine List.pairwise_cons.2 ⟨fun x hx => ?_, ih ht⟩
      rcases List.mem_cons.1 ((insertBy_perm v t).mem_iff.1 hx) with rfl | hx
      · exact before
      · exact hw x hx
    · have first : le v w = true := (total v w).resolve_right before
      refine List.pairwise_cons.2 ⟨fun x hx => ?_, h⟩
      rcases List.mem_cons.1 hx with rfl | hx
      · exact first
      · exact trans _ _ _ first (hw x hx)

theorem sortBy_sorted (total : ∀ a b, le a b = true ∨ le b a = true)
    (trans : ∀ a b c, le a b = true → le b c = true → le a c = true) (l : List α) :
    (sortBy le l).Pairwise fun a b => le a b = true := by
  have sorted (l acc : List α) (h : acc.Pairwise fun a b => le a b = true) :
      (l.foldl (fun acc v => insertBy le v acc) acc).Pairwise fun a b => le a b = true := by
    induction l generalizing acc with
    | nil => exact h
    | cons v l ih => exact ih _ (insertBy_sorted total trans v h)
  exact sorted l [] .nil

end Sorting

theorem bookOrder_iff (a b : Nat × Entry) :
    bookOrder a b = true ↔ a.2.first < b.2.first ∨ (a.2.first = b.2.first ∧ a.1 ≤ b.1) := by
  simp [bookOrder]

/-- Settles O12: the reading is a part of the sorted book, whose numbers differ. -/
theorem listReadsInOrder : Obligations.ListReadsInOrder := by
  intro s fromStart liveOnly slot n tables reading
  have sorted : (sortBy bookOrder s.book.entries).Pairwise fun a b => bookOrder a b = true :=
    sortBy_sorted (fun a b => by simp only [bookOrder_iff]; omega)
      (fun a b c => by simp only [bookOrder_iff]; omega) _
  have apart : (sortBy bookOrder s.book.entries).Pairwise fun a b => a.1 ≠ b.1 := by
    refine (sortBy_perm s.book.entries).pairwise_iff (fun h => h.symm) |>.2 ?_
    obtain ⟨-, -, -, rising, -⟩ := tables
    exact (List.pairwise_map.1 rising).imp fun h => by omega
  refine ⟨?_, fun p => ?_⟩
  · refine List.Pairwise.filter _ ((sorted.and apart).imp fun ⟨order, differ⟩ => ?_)
    rw [bookOrder_iff] at order
    omega
  · show p ∈ List.filter _ _ ↔ _
    rw [List.mem_filter, (sortBy_perm s.book.entries).mem_iff]
    refine and_congr_right fun _ => ?_
    cases fromStart <;> cases liveOnly <;> simp [afterKey]

/-! ### Channels written one after another -/

/-- A record other than the one at reset reads back whatever the table's form. -/
theorem channelOf_setChannel_listed {r : ChannelRec} (listed : r ≠ ChannelRec.reset) (c k : Nat) (s : State) :
    channelOf (setChannel c r s) k = if k = c then r else channelOf s k := by
  unfold channelOf setChannel tableSet
  rw [if_neg listed]
  simp only [tableGet, tableFind_tableInsert]
  split_ifs <;> rfl

/-- Steps on single channels write each channel named, and only those. -/
theorem channelOf_foldl {f : State → Nat → State} {g : ChannelRec → ChannelRec} (idem : ∀ r, g (g r) = g r)
    (one : ∀ s c k, channelOf (f s c) k = if k = c then g (channelOf s c) else channelOf s k) (cs : List Nat)
    (s : State) (k : Nat) : channelOf (cs.foldl f s) k = if k ∈ cs then g (channelOf s k) else channelOf s k := by
  induction cs generalizing s with
  | nil => simp
  | cons c cs ih =>
    rw [List.foldl_cons, ih, one]
    by_cases hc : k = c
    · subst hc
      simp [idem]
    · simp [hc]

/-- What the last step of a fold leaves. -/
theorem foldl_of_ne_nil {α β : Type} {f : β → α → β} {P : β → Prop} (h : ∀ b a, P (f b a)) {l : List α} (ne : l ≠ [])
    (b : β) : P (l.foldl f b) := by
  rw [← List.dropLast_append_getLast ne, List.foldl_append]
  exact h _ _

/-- On the channels, the links and the Evaluator alone something may differ. -/
def ChannelsOnly (s t : State) : Prop := ∃ channels links eval,
  t = { s with ctl := { s.ctl with channels := channels }, links := links, eval := eval }

theorem ChannelsOnly.refl (s : State) : ChannelsOnly s s := ⟨_, _, _, rfl⟩

theorem ChannelsOnly.trans {s t u : State} : ChannelsOnly s t → ChannelsOnly t u → ChannelsOnly s u := by
  rintro ⟨_, _, _, rfl⟩ ⟨_, _, _, rfl⟩
  exact ⟨_, _, _, rfl⟩

theorem ChannelsOnly.foldl {f : State → Nat → State} (h : ∀ s c, ChannelsOnly s (f s c)) (cs : List Nat) (s : State) :
    ChannelsOnly s (cs.foldl f s) := by
  induction cs generalizing s with
  | nil => exact .refl s
  | cons c cs ih => exact (h s c).trans (ih _)

theorem eq_of_links_still {s t : State} (h : { t with links := s.links } = s) : t = { s with links := t.links } :=
  congrArg (fun x : State => { x with links := t.links }) h

theorem raiseChannel_frame (c : Nat) (s : State) :
    raiseChannel c s = { s with links := (raiseChannel c s).links } :=
  eq_of_links_still (channelRaised_raiseChannel c s).2.2

theorem channelsOnly_raiseChannel (c : Nat) (s : State) : ChannelsOnly s (raiseChannel c s) :=
  ⟨_, _, _, raiseChannel_frame c s⟩

theorem channelsOnly_setChannel (c : Nat) (r : ChannelRec) (s : State) : ChannelsOnly s (setChannel c r s) :=
  ⟨_, _, _, rfl⟩

theorem channelOf_raiseChannel (c k : Nat) (s : State) : channelOf (raiseChannel c s) k = channelOf s k :=
  channelOf_congr (aside_raiseChannel c s).channels k

theorem marked_setChannel (c : Nat) (r : ChannelRec) (s : State) :
    Marked s (setChannel c r s) (fun _ _ => False) (fun _ => false) := .still rfl rfl rfl

theorem marked_raiseChannel (c : Nat) (s : State) :
    Marked s (raiseChannel c s) (fun _ _ => False) (fun _ => false) := by
  rw [raiseChannel_frame]
  exact .still rfl rfl rfl

/-! ### Requests that name channels -/

/-- A request of a fleet link that no check of its frame refuses ends with the answer its block gives. -/
theorem receiveRequest_fleet_answered {q : Request} {l : Link} {c : List Byte} {s t : State} {m : UnitMap}
    {code : AnswerCode} {result : List Byte} {take : Link → List Byte → State → State × Reply} (h : CanTake s l)
    (hm : mapOf s l = some m) (ha : allowed q .fleet = true) (hc : c.length = contentsLength q)
    (hx : contentsRefusal c q = none) (hn : namesPermitted m c q = true)
    (taken : take l c (frameComplete l s) = (t, .answer code result)) (tag : Byte) :
    effect (receiveRequest q take l tag c) s = .next (settle (answered q l tag code result t)) := by
  have fleet : classOf l = .fleet := by
    cases l with
    | tl => cases hm
    | gl => cases hm
    | fa => rfl
    | fb => rfl
  exact receiveRequest_answered h (frameRefusal_fleet hm (by rw [fleet]; exact ha) hc hx hn) taken tag

theorem all_covered {c : List Byte} {m : UnitMap} (h : ∀ k ∈ named c, mapCovers m k = true) :
    (maskChannels (readU c 0 1)).all (mapCovers m) = true := List.all_eq_true.2 h

theorem allIn_iff (s : State) (st : ChannelState) (cs : List Nat) :
    allIn s st cs = true ↔ ∀ k ∈ cs, (channelOf s k).state = st := by
  simp [allIn]

theorem allIn_frameComplete (l : Link) (s : State) (st : ChannelState) (cs : List Nat) :
    allIn (frameComplete l s) st cs = allIn s st cs := by
  simp [allIn]

theorem newlyMarked_frameComplete (l : Link) {s t : State} {p : Nat → Entry → Prop} :
    NewlyMarked (frameComplete l s) t p ↔ NewlyMarked s t p := by
  simp [NewlyMarked]

/-! ### START (R34) -/

theorem channelOf_startChannel (s : State) (c k : Nat) :
    channelOf (startChannel s c) k = if k = c then
      { channelOf s c with
        state := .starting
        discovery := some { step := .arm, attempt := 1, position := 0, page := 0, records := [] } }
      else channelOf s k := by
  rw [startChannel, channelOf_raiseChannel]
  exact channelOf_setChannel_listed (by simp [ChannelRec.reset]) c k s

theorem channelsOnly_startChannel (s : State) (c : Nat) : ChannelsOnly s (startChannel s c) :=
  (channelsOnly_setChannel ..).trans (channelsOnly_raiseChannel ..)

/-- The events of START leave the Evaluator as it is. -/
theorem foldl_startChannel_eval (cs : List Nat) (s : State) : (cs.foldl startChannel s).eval = s.eval := by
  induction cs generalizing s with
  | nil => rfl
  | cons c cs ih => rw [List.foldl_cons, ih, startChannel, raiseChannel_frame]; rfl

/-- Settles O15: by the two refusals of START and its fold over the named channels. -/
theorem startBeginsDiscovery : Obligations.StartBeginsDiscovery := by
  intro l tag c s m h hm hc some covered u
  have answer {t : State} {code : AnswerCode} {result : List Byte}
      (taken : takeStart l c (frameComplete l s) = (t, .answer code result)) :
      exec (.start l tag c) s = .next (settle (answered .start l tag code result t)) :=
    receiveRequest_fleet_answered h hm (q := .start) rfl hc (if_neg some) (all_covered covered) taken tag
  have stopped_iff : allIn u .stopped (named c) = true ↔ ∀ k ∈ named c, (channelOf s k).state = .stopped := by
    rw [allIn_frameComplete, allIn_iff]
  have holds_iff : (named c).any (spanHoldsRecord u) = true ↔ ∃ r ∈ s.shares, channelOfUnit r.unit ∈ named c := by
    simp only [List.any_eq_true, spanHoldsRecord, u, frameComplete_shares, beq_iff_eq]
    exact ⟨fun ⟨k, hk, r, hr, e⟩ => ⟨r, hr, e ▸ hk⟩, fun ⟨r, hr, hk⟩ => ⟨_, hk, r, hr, rfl⟩⟩
  refine ⟨fun ⟨k, hk, wrong⟩ => answer (if_pos ?_), fun stopped held => ?_, fun stopped free => ?_⟩
  · rw [Bool.eq_false_iff]
    exact fun all => wrong (stopped_iff.1 all k hk)
  · exact answer ((if_neg (ne_false_of_eq_true (stopped_iff.2 stopped))).trans (if_pos (holds_iff.2 held)))
  · have free' : ¬(named c).any (spanHoldsRecord u) = true := fun held => by
      obtain ⟨r, hr, hk⟩ := holds_iff.1 held
      exact free r hr hk
    refine ⟨(named c).foldl startChannel u,
      answer ((if_neg (ne_false_of_eq_true (stopped_iff.2 stopped))).trans (if_neg free')), ?_, ?_, ?_, ?_, fun k => ?_⟩
    · obtain ⟨cs, ls, ev, e⟩ := ChannelsOnly.foldl channelsOnly_startChannel (named c) u
      have eval := foldl_startChannel_eval (named c) u
      rw [e] at eval ⊢
      exact congrArg (fun ev => { u with eval := ev }) eval
    · exact (Inner.foldl inner_startChannel (named c) u).links
    · exact foldl_of_ne_nil (P := fun t => t.links.tl.notices.channel = true)
        (fun s k => (channelRaised_raiseChannel k _).1.1) some u
    · obtain ⟨cs, ls, ev, e⟩ := ChannelsOnly.foldl channelsOnly_startChannel (named c) u
      rw [e]
      show { (frameComplete l s).ctl with channels := s.ctl.channels } = s.ctl
      rw [frameComplete_ctl]
    · rw [channelOf_foldl (g := fun r => { r with
          state := .starting
          discovery := Option.some { step := .arm, attempt := 1, position := 0, page := 0, records := [] } })
        (fun r => rfl) channelOf_startChannel, channelOf_frameComplete]

/-! ### ENGAGE (R41, R162) -/

theorem channelOf_engageChannel (s : State) (c k : Nat) :
    channelOf (engageChannel s c) k =
      if k = c then { channelOf s c with state := .running } else channelOf s k := by
  rw [engageChannel, channelOf_raiseChannel]
  exact channelOf_setChannel_listed (by simp [ChannelRec.reset]) c k s

theorem channelsOnly_engageChannel (s : State) (c : Nat) : ChannelsOnly s (engageChannel s c) :=
  (channelsOnly_setChannel ..).trans (channelsOnly_raiseChannel ..)

theorem marked_foldl_engageChannel (cs : List Nat) (s : State) :
    Marked s (cs.foldl engageChannel s) (fun _ _ => False) (fun _ => false) :=
  (marked_foldl (q := fun _ _ => false) (fun s c =>
    ((marked_setChannel c { channelOf s c with state := .running } s).trans
      (marked_raiseChannel c _)).congr (fun n x => by simp) fun k => rfl) cs s).congr
    (fun n x => by simp) (fun k => by simp)

/-- A unit without the event of its exclusion, once it is raised. -/
def eventRaised (p : Nat → Bool) (i : Nat) (u : UnitRec) : UnitRec :=
  if p i = true ∧ u.state = .ready then { u with owesEvent := false } else u

/-- The units whose exclusion raises its event, and their records without the debt (R162; log 35). -/
theorem raiseOwed_frame (p : Nat → Bool) (s : State) : ∃ eval, raiseOwed p s =
    { s with fleet := { s.fleet with units := tableMap UnitRec.reset (eventRaised p) s.fleet.units }, eval := eval } :=
  ⟨_, foldl_contributionLost_frame ..⟩

/-- The units on which `raiseOwed` raises an event. -/
def owes (p : Nat → Bool) (s : State) (i : Nat) : Bool :=
  p i && decide ((unitOf s i).state = .ready) && (unitOf s i).owesEvent

theorem unitOf_raiseOwed {s : State} (rising : Ascending s.fleet.units) (p : Nat → Bool) (i : Nat) :
    unitOf (raiseOwed p s) i = if owes p s i = true then { unitOf s i with owesEvent := false } else unitOf s i := by
  obtain ⟨eval, e⟩ := raiseOwed_frame p s
  rw [e]
  refine (tableGet_tableMap (eventRaised p) rising (fun i => by simp [eventRaised, UnitRec.reset]) i).trans ?_
  show eventRaised p i (unitOf s i) = _
  unfold eventRaised
  cases owed : (unitOf s i).owesEvent
  · have same : { unitOf s i with owesEvent := false } = unitOf s i := by rw [← owed]
    simp [same]
  · simp [owes, owed]

theorem marked_raiseOwed {s : State} (rising : Ascending s.fleet.units) (p : Nat → Bool) :
    Marked s (raiseOwed p s) (fun n _ => ∃ r ∈ s.shares, r.entry = n ∧ owes p s r.unit = true) (owes p s) := by
  have mem (i : Nat) : i ∈ (s.fleet.units.filter fun q =>
      p q.1 && decide (q.2.state = .ready) && q.2.owesEvent).map Prod.fst ↔ owes p s i = true :=
    mem_unitsWhere rising (fun i v => p i && decide (v.state = .ready) && v.owesEvent)
      (fun i => by simp [UnitRec.reset]) i
  have written : Marked s { s with fleet := { s.fleet with
      units := tableMap UnitRec.reset (eventRaised p) s.fleet.units } } (fun _ _ => False) (fun _ => false) :=
    .still rfl rfl rfl
  refine (written.trans (marked_foldl_contributionLost _ _)).congr (fun n x => ?_) (fun k => ?_)
  · simp only [mem, false_or]
  · rw [Bool.false_or, Bool.eq_iff_iff, List.contains_iff_mem, mem]

/-! ### DISENGAGE (R42) -/

/-- A loss on a channel's span changes the Evaluator alone. -/
theorem spanLost_frame (p : Nat → Bool) (s : State) :
    disturb p (markOnUnits p s) = { s with eval := (disturb p (markOnUnits p s)).eval } := by
  rw [disturb_eq]
  rfl

theorem spanLost_ctl (p : Nat → Bool) (s : State) : (disturb p (markOnUnits p s)).ctl = s.ctl := by rw [spanLost_frame]

theorem spanLost_links (p : Nat → Bool) (s : State) : (disturb p (markOnUnits p s)).links = s.links := by
  rw [spanLost_frame]

theorem channelsOnly_spanLost (p : Nat → Bool) (s : State) : ChannelsOnly s (disturb p (markOnUnits p s)) :=
  ⟨_, _, _, spanLost_frame ..⟩

theorem channelOf_disengageChannel (s : State) (c k : Nat) :
    channelOf (disengageChannel s c) k =
      if k = c then { channelOf s c with state := .idling } else channelOf s k := by
  dsimp only [disengageChannel]
  rw [channelOf_congr (congrArg Controller.channels (spanLost_ctl ..)), channelOf_raiseChannel]
  exact channelOf_setChannel_listed (by simp [ChannelRec.reset]) c k s

theorem channelsOnly_disengageChannel (s : State) (c : Nat) : ChannelsOnly s (disengageChannel s c) := by
  dsimp only [disengageChannel]
  exact (channelsOnly_setChannel ..).trans ((channelsOnly_raiseChannel ..).trans (channelsOnly_spanLost ..))

theorem marked_disengageChannel (s : State) (c : Nat) :
    Marked s (disengageChannel s c)
      (fun n _ => ∃ r ∈ s.shares, r.entry = n ∧ (channelOfUnit r.unit == c) = true) (fun i => channelOfUnit i == c) := by
  have raised := (marked_setChannel c { channelOf s c with state := .idling } s).trans (marked_raiseChannel c _)
  refine (raised.trans ((marked_markOnUnits (fun i => channelOfUnit i == c) _).trans
    (marked_disturb (fun i => channelOfUnit i == c) _))).congr (fun n x => ?_) (fun k => by simp)
  rw [raised.shares]
  simp

theorem raised_disengageChannel (s : State) (c : Nat) :
    (disengageChannel s c).links.tl.notices.channel = true := by
  dsimp only [disengageChannel]
  rw [spanLost_links]
  exact (channelRaised_raiseChannel c _).1.1

/-- Settles O17: ENGAGE and DISENGAGE fold one operation over the named channels. -/
theorem engageAndDisengageChannels : Obligations.EngageAndDisengageChannels := by
  intro l tag c s m h hm hc some covered u
  have engage {t : State} {code : AnswerCode} {result : List Byte}
      (taken : takeEngage l c (frameComplete l s) = (t, .answer code result)) :
      exec (.engage l tag c) s = .next (settle (answered .engage l tag code result t)) :=
    receiveRequest_fleet_answered h hm (q := .engage) rfl hc (if_neg some) (all_covered covered) taken tag
  have disengage {t : State} {code : AnswerCode} {result : List Byte}
      (taken : takeDisengage l c (frameComplete l s) = (t, .answer code result)) :
      exec (.disengage l tag c) s = .next (settle (answered .disengage l tag code result t)) :=
    receiveRequest_fleet_answered h hm (q := .disengage) rfl hc (if_neg some) (all_covered covered) taken tag
  have all_iff (st : ChannelState) : allIn u st (named c) = true ↔ ∀ k ∈ named c, (channelOf s k).state = st := by
    rw [allIn_frameComplete, allIn_iff]
  have wrong_iff {st : ChannelState} (wrong : ∃ k ∈ named c, (channelOf s k).state ≠ st) :
      allIn u st (named c) = false := by
    obtain ⟨k, hk, wrong⟩ := wrong
    rw [Bool.eq_false_iff]
    exact fun all => wrong ((all_iff st).1 all k hk)
  refine ⟨fun wrong => engage (if_pos (wrong_iff wrong)), fun idle => ?_,
    fun wrong => disengage (if_pos (wrong_iff wrong)), fun run => ?_⟩
  · set v := (named c).foldl engageChannel u with hv
    set p : Nat → Bool := fun i => (named c).contains (channelOfUnit i)
    have frameV := ChannelsOnly.foldl channelsOnly_engageChannel (named c) u
    obtain ⟨eval, frame⟩ := raiseOwed_frame p (contributionGained v)
    have inner := (Inner.foldl inner_engageChannel (named c) u).trans
      ((inner_contributionGained v).trans (inner_raiseOwed p _))
    refine ⟨raiseOwed p (contributionGained v), engage (if_neg (ne_false_of_eq_true ((all_iff _).2 idle))), ?_, ?_,
      inner.links, inner.marks, ?_, ?_, fun k => ?_, fun tables => ?_⟩
    · obtain ⟨cs, ls, ev, e⟩ := frameV
      rw [frame, hv, e]
      rfl
    · obtain ⟨cs, ls, ev, e⟩ := frameV
      rw [frame, hv, e]
      show { (frameComplete l s).fleet with units := s.fleet.units } = s.fleet
      rw [frameComplete_fleet]
    · rw [frame]
      exact foldl_of_ne_nil (P := fun t => t.links.tl.notices.channel = true)
        (fun s k => (channelRaised_raiseChannel k _).1.1) some u
    · obtain ⟨cs, ls, ev, e⟩ := frameV
      rw [frame, hv, e]
      show { (frameComplete l s).ctl with channels := s.ctl.channels } = s.ctl
      rw [frameComplete_ctl]
    · rw [frame]
      show channelOf v k = _
      rw [hv, channelOf_foldl (g := fun r => { r with state := .running }) (fun r => rfl) channelOf_engageChannel,
        channelOf_frameComplete]
    · have fleet : (contributionGained v).fleet = s.fleet := by
        obtain ⟨cs, ls, ev, e⟩ := frameV
        rw [hv, e]
        exact frameComplete_fleet l s
      have units (i : Nat) : unitOf (contributionGained v) i = unitOf s i := unitOf_congr fleet i
      have rising : Ascending (contributionGained v).fleet.units := by rw [fleet]; exact tables.1.1
      have debt (i : Nat) : owes p (contributionGained v) i =
          (p i && decide ((unitOf s i).state = .ready) && (unitOf s i).owesEvent) := by rw [owes, units]
      have marksV := marked_foldl_engageChannel (named c) u
      have marks := (marksV.trans (marked_contributionGained v)).trans (marked_raiseOwed rising p)
      refine ⟨fun i => ?_, ?_, ?_⟩
      · rw [unitOf_raiseOwed rising, debt, units]
      · exact (marks.congr (fun n x => .rfl) fun i => debt i).disturbs
      · have shares : (contributionGained v).shares = s.shares := marksV.shares.trans (frameComplete_shares l s)
        refine (newlyMarked_frameComplete l).1 (marks.congr (fun n x => ?_) fun i => rfl).marked
        simp only [debt, shares, false_or, p]
  · set v := (named c).foldl disengageChannel u with hv
    have frameV := ChannelsOnly.foldl channelsOnly_disengageChannel (named c) u
    have inner := Inner.foldl inner_disengageChannel (named c) u
    refine ⟨v, disengage (if_neg (ne_false_of_eq_true ((all_iff _).2 run))), ?_, inner.links, inner.marks,
      foldl_of_ne_nil (P := fun t => t.links.tl.notices.channel = true) raised_disengageChannel some u, ?_,
      fun k => ?_, ?_⟩
    · obtain ⟨cs, ls, ev, e⟩ := frameV
      rw [hv, e]
    · obtain ⟨cs, ls, ev, e⟩ := frameV
      rw [hv, e]
      show { (frameComplete l s).ctl with channels := s.ctl.channels } = s.ctl
      rw [frameComplete_ctl]
    · rw [hv, channelOf_foldl (g := fun r => { r with state := .idling }) (fun r => rfl) channelOf_disengageChannel,
        channelOf_frameComplete]
    · refine (newlyMarked_frameComplete l).1 (((marked_foldl (q := fun c i => channelOfUnit i == c)
        marked_disengageChannel (named c) u).congr (fun n x => ?_) fun i => rfl).marked)
      simp [u]

end Sys2Proof.Machine

/-! PROOF. Requests on the book: how an entry is found (R58), OFFER and QUOTE up to their job (R61, R82), WITHDRAW,
DISCARD and RELEASE (R66, R68, R69). -/

namespace Sys2Proof.Machine

/-! ### Requests of TL and GL -/

/-- A request of TL or GL that no check of its frame refuses ends with the answer its block gives it. -/
theorem exec_master_answered {q : Request} {l : Link} {c : List Byte} {s t : State} {code : AnswerCode}
    {result : List Byte} (h : CanTake s l) (hl : l = .tl ∨ l = .gl) (ha : allowed q (classOf l) = true)
    (hc : c.length = contentsLength q) (notActivate : q ≠ .activate) (hx : contentsRefusal c q = none)
    (taken : takeOf q l c (frameComplete l s) = (t, .answer code result)) (tag : Byte) :
    exec (commandOf q l tag c) s = .next (settle (answered q l tag code result t)) := by
  rw [exec_commandOf, receiveCommand, if_neg notActivate]
  exact receiveRequest_answered h (frameRefusal_master s hl ha hc hx) taken tag

/-- A request of TL that waits for its job becomes the request in process, unanswered. -/
theorem exec_tl_waits {q : Request} {c : List Byte} {s t : State} (h : CanTake s .tl)
    (ha : allowed q .market = true) (hc : c.length = contentsLength q) (notActivate : q ≠ .activate)
    (hx : contentsRefusal c q = none) (taken : takeOf q .tl c (frameComplete .tl s) = (t, .waits)) (tag : Byte) :
    exec (commandOf q .tl tag c) s = .next (settle (processing q .tl tag t)) := by
  rw [exec_commandOf, receiveCommand, if_neg notActivate,
    receiveRequest_taken h (frameRefusal_master s (.inl rfl) ha hc hx), handOn_eq, taken]

/-! ### Finding an entry (R58) -/

theorem findEntry_of_names {s : State} {c : List Byte} {n : Nat} {e : Entry} (h : Names s c n e) :
    findEntry s (readU c 0 2) (readU c 2 4) = .ok e := by
  obtain ⟨rfl, bound, found, ref⟩ := h
  simp [findEntry, not_lt.2 bound, found, ref]

theorem findEntry_frameComplete (l : Link) (s : State) (n ref : Nat) :
    findEntry (frameComplete l s) n ref = findEntry s n ref := by
  simp [findEntry]

theorem findEntry_out {s : State} {n : Nat} (h : 1023 < n) (ref : Nat) : findEntry s n ref = .error .badRange :=
  if_pos h

theorem findEntry_free {s : State} {n : Nat} (h : n ≤ 1023) (free : entryOf s n = none) (ref : Nat) :
    findEntry s n ref = .error .noEntry := by
  simp [findEntry, not_lt.2 h, free]

theorem findEntry_other {s : State} {n ref : Nat} {e : Entry} (h : n ≤ 1023) (found : entryOf s n = some e)
    (differ : ref ≠ e.ref) : findEntry s n ref = .error .noEntry := by
  simp [findEntry, not_lt.2 h, found, differ.symm]

/-- The requests that find their entry refuse what `findEntry` refuses. -/
theorem takeOf_findEntry_error {q : Request} {s : State} {c : List Byte} {code : AnswerCode}
    (hq : (q = .award ∧ s.time.timeSet = true) ∨ q = .withdraw ∨ q = .discard ∨ q = .release)
    (refused : findEntry s (readU c 0 2) (readU c 2 4) = .error code) (l : Link) :
    takeOf q l c s = (s, .answer code []) := by
  rcases hq with ⟨rfl, set⟩ | rfl | rfl | rfl
  · simp [takeOf, takeAward, set, refused, refuse]
  · simp [takeOf, takeWithdraw, refused, refuse]
  · simp [takeOf, takeDiscard, refused, refuse]
  · simp [takeOf, takeRelease, refused, refuse]

/-- Settles O25: by the errors of `findEntry`, and the two of ENTRY. -/
theorem entryIsFoundByNumberAndReference : Obligations.EntryIsFoundByNumberAndReference := by
  intro q l tag c s h hq hc u n
  have hl : l = .tl ∨ l = .gl := by
    rcases hq with ⟨-, rfl, -⟩ | ⟨-, rfl⟩ | ⟨-, rfl⟩ | ⟨-, rfl⟩ | ⟨-, hl⟩
    · exact .inl rfl
    · exact .inl rfl
    · exact .inl rfl
    · exact .inr rfl
    · exact hl
  have ha : allowed q (classOf l) = true := by
    rcases hq with ⟨rfl, rfl, -⟩ | ⟨rfl, rfl⟩ | ⟨rfl, rfl⟩ | ⟨rfl, rfl⟩ | ⟨rfl, rfl | rfl⟩ <;> rfl
  have notActivate : q ≠ .activate := by
    rcases hq with ⟨rfl, -⟩ | ⟨rfl, -⟩ | ⟨rfl, -⟩ | ⟨rfl, -⟩ | ⟨rfl, -⟩ <;> simp
  have hx : contentsRefusal c q = none := by
    rcases hq with ⟨rfl, -⟩ | ⟨rfl, -⟩ | ⟨rfl, -⟩ | ⟨rfl, -⟩ | ⟨rfl, -⟩ <;> rfl
  have answer {code : AnswerCode} (taken : takeOf q l c u = (u, .answer code [])) :
      exec (commandOf q l tag c) s = .next (settle (answered q l tag code [] u)) :=
    exec_master_answered h hl ha hc notActivate hx taken tag
  have kind : ((q = .award ∧ u.time.timeSet = true) ∨ q = .withdraw ∨ q = .discard ∨ q = .release) ∨ q = .entry := by
    rcases hq with ⟨rfl, -, set⟩ | ⟨rfl, -⟩ | ⟨rfl, -⟩ | ⟨rfl, -⟩ | ⟨rfl, -⟩ <;> simp [u, *]
  refine ⟨fun out => ?_, fun bound free => ?_, fun e bound found notEntry differ => ?_⟩
  · rcases kind with kind | rfl
    · exact answer (takeOf_findEntry_error kind (findEntry_out out _) l)
    · exact answer (if_pos out)
  · have free' : entryOf u n = none := by rw [entryOf_frameComplete, free]
    rcases kind with kind | rfl
    · exact answer (takeOf_findEntry_error kind (findEntry_free bound free' _) l)
    · refine answer ((if_neg (not_lt.2 bound)).trans ?_)
      rw [free']
      rfl
  · have found' : entryOf u n = some e := by rw [entryOf_frameComplete, found]
    exact answer (takeOf_findEntry_error (kind.resolve_right notEntry) (findEntry_other bound found' differ) l)

/-! ### OFFER and QUOTE up to their job (R61, R82) -/

theorem lowestFreeEntry_eq_none_iff (s : State) :
    lowestFreeEntry s = none ↔ ∀ k < 1024, (entryOf s k).isSome = true := by
  unfold lowestFreeEntry
  simp only [List.find?_eq_none, List.mem_range, Config.entries]
  exact forall₂_congr fun k _ => by cases entryOf s k <;> simp

/-- Settles O24: by the checks of the two requests in their order. -/
theorem tlRequestsWaitForTheirJob : Obligations.TlRequestsWaitForTheirJob := by
  intro tag c s h u now
  refine ⟨fun hc => ?offer, fun hc => ?quote⟩
  case offer =>
    intro ref first n quantity full used
    have answer {code : AnswerCode} (taken : takeOf .offer .tl c u = (u, .answer code [])) :
        exec (.offer .tl tag c) s = .next (settle (answered .offer .tl tag code [] u)) :=
      exec_master_answered h (.inl rfl) rfl hc (by simp) rfl taken tag
    refine ⟨fun unset => answer (if_pos unset), fun set unknown => answer ?_, fun p set known => ?_⟩
    · refine (if_neg (ne_false_of_eq_true set)).trans ?_
      rw [unknown]
      rfl
    have refused {code : AnswerCode} (r : offerRefusal u ref first n quantity = some code) :
        exec (.offer .tl tag c) s = .next (settle (answered .offer .tl tag code [] u)) := by
      refine answer ((if_neg (ne_false_of_eq_true set)).trans ?_)
      dsimp only [ref, first, n, quantity] at r
      rw [known, r]
      rfl
    have full_iff : lowestFreeEntry u = none ↔ full := by
      rw [lowestFreeEntry_eq_none_iff]
      simp [u, full]
    have used_iff : (u.book.entries.any fun q => decide (q.2.ref = ref)) = true ↔ used := by
      simp [u, used]
    refine ⟨fun full => refused (if_pos (full_iff.2 full)),
      fun notFull used => refused ((if_neg (mt full_iff.1 notFull)).trans (if_pos (used_iff.2 used))),
      fun notFull notUsed => ?_⟩
    have rest {code : AnswerCode} (r : (if first ≤ now + s.time.gate then some AnswerCode.tooLate
        else if now + 192 < first then some .badRange
        else if n < 1 ∨ 96 < n ∨ 4294967294 < first + n - 1 then some .badRange
        else if quantity < 1 ∨ 65535 < quantity then some .badRange else none) = some code) :
        exec (.offer .tl tag c) s = .next (settle (answered .offer .tl tag code [] u)) :=
      refused ((if_neg (mt full_iff.1 notFull)).trans ((if_neg (mt used_iff.1 notUsed)).trans r))
    split_ifs with late early out zero
    · exact rest (if_pos late)
    · exact rest ((if_neg late).trans (if_pos early))
    · exact rest ((if_neg late).trans ((if_neg early).trans (if_pos out)))
    · exact rest ((if_neg late).trans ((if_neg early).trans ((if_neg out).trans (if_pos (.inl (by omega))))))
    · have small : quantity < 65536 := readU_lt c 10 2
      have fits : offerRefusal u ref first n quantity = none :=
        (if_neg (mt full_iff.1 notFull)).trans ((if_neg (mt used_iff.1 notUsed)).trans ((if_neg late).trans
          ((if_neg early).trans ((if_neg out).trans (if_neg (by omega))))))
      refine exec_tl_waits (q := .offer) h rfl hc (by simp) rfl ?_ tag
      refine (if_neg (ne_false_of_eq_true set)).trans ?_
      dsimp only [ref, first, n, quantity] at fits
      rw [known, fits]
      rfl
  case quote =>
    intro first n
    have answer {code : AnswerCode} (taken : takeOf .quote .tl c u = (u, .answer code [])) :
        exec (.quote .tl tag c) s = .next (settle (answered .quote .tl tag code [] u)) :=
      exec_master_answered h (.inl rfl) rfl hc (by simp) rfl taken tag
    refine ⟨fun unset => answer (if_pos unset), fun set unknown => answer ?_, fun p set known => ?_⟩
    · refine (if_neg (ne_false_of_eq_true set)).trans ?_
      rw [unknown]
      rfl
    have out_iff : quoteOutOfRange u first n = true ↔
        (n < 1 ∨ 96 < n ∨ 4294967295 < first + n - 1) ∨ first < now + 1 ∨ now + 192 < first := by
      simp only [quoteOutOfRange, Bool.or_eq_true, decide_eq_true_eq, or_assoc]
      exact Iff.rfl
    have refused (r : quoteOutOfRange u first n = true) :
        exec (.quote .tl tag c) s = .next (settle (answered .quote .tl tag .badRange [] u)) := by
      refine answer ((if_neg (ne_false_of_eq_true set)).trans ?_)
      rw [known]
      exact if_pos r
    split_ifs with size place
    · exact refused (out_iff.2 (.inl size))
    · exact refused (out_iff.2 (.inr place))
    · refine exec_tl_waits (q := .quote) h rfl hc (by simp) rfl ?_ tag
      refine (if_neg (ne_false_of_eq_true set)).trans ?_
      rw [known]
      exact if_neg fun r => (out_iff.1 r).elim size place

end Sys2Proof.Machine

/-! PROOF. Trimming (R109), and the requests that end or fix an entry: AWARD, WITHDRAW, DISCARD and RELEASE (R63, R64,
R66, R68, R69, R110). -/

namespace Sys2Proof.Machine

/-! ### Trimming (R109) -/

theorem trimLoop_zero (q : Nat) (rs : List ShareRec) : trimLoop q rs 0 = rs := by
  cases rs <;> simp [trimLoop]

theorem powerSum_cons (r : ShareRec) (rs : List ShareRec) : powerSum (r :: rs) = r.power + powerSum rs := by
  simp [powerSum]

theorem powerSum_append (as bs : List ShareRec) : powerSum (as ++ bs) = powerSum as + powerSum bs := by
  simp [powerSum]

theorem powerSum_reverse (rs : List ShareRec) : powerSum rs.reverse = powerSum rs := by
  simp [powerSum]

/-- What a trim keeps of a record: the record, with its power or a lower one of at least q. -/
def TrimmedFrom (q : Nat) (o r : ShareRec) : Prop :=
  r = { o with power := r.power } ∧ r.power ≤ o.power ∧ (r.power = o.power ∨ q ≤ r.power)

theorem TrimmedFrom.refl (q : Nat) (r : ShareRec) : TrimmedFrom q r r := ⟨rfl, le_rfl, .inl rfl⟩

theorem mem_trimLoop {q : Nat} {rs : List ShareRec} {x : Nat} {r : ShareRec} (h : r ∈ trimLoop q rs x) :
    ∃ o ∈ rs, TrimmedFrom q o r := by
  induction rs generalizing x with
  | nil => cases h
  | cons a t ih =>
    unfold trimLoop at h
    split_ifs at h
    · exact ⟨r, h, .refl q r⟩
    · obtain ⟨o, ho, from_⟩ := ih h
      exact ⟨o, List.mem_cons_of_mem _ ho, from_⟩
    · rcases List.mem_cons.1 h with rfl | h
      · exact ⟨a, List.mem_cons_self, rfl, Nat.sub_le .., .inr ‹_›⟩
      · exact ⟨r, List.mem_cons_of_mem _ h, .refl q r⟩
    · rcases List.mem_cons.1 h with rfl | h
      · exact ⟨r, List.mem_cons_self, .refl q r⟩
      · obtain ⟨o, ho, from_⟩ := ih h
        exact ⟨o, List.mem_cons_of_mem _ ho, from_⟩

theorem trimLoop_tens {q : Nat} {rs : List ShareRec} {x : Nat} (h : ∀ r ∈ rs, r.power % 10 = 0) (hx : x % 10 = 0) :
    ∀ r ∈ trimLoop q rs x, r.power % 10 = 0 := by
  induction rs generalizing x with
  | nil => simp [trimLoop]
  | cons a t ih =>
    have first := h a List.mem_cons_self
    have rest : ∀ r ∈ t, r.power % 10 = 0 := fun r hr => h r (List.mem_cons_of_mem _ hr)
    unfold trimLoop
    split_ifs
    · exact h
    · exact ih rest (by omega)
    · intro r hr
      rcases List.mem_cons.1 hr with rfl | hr
      · show (a.power - x) % 10 = 0
        omega
      · exact rest r hr
    · intro r hr
      rcases List.mem_cons.1 hr with rfl | hr
      · exact first
      · exact ih rest hx r hr

theorem powerSum_trimLoop_le (q : Nat) (rs : List ShareRec) (x : Nat) : powerSum (trimLoop q rs x) ≤ powerSum rs := by
  induction rs generalizing x with
  | nil => exact le_rfl
  | cons a t ih =>
    unfold trimLoop
    split_ifs
    · exact le_rfl
    · exact (ih _).trans (by rw [powerSum_cons]; omega)
    · rw [powerSum_cons, powerSum_cons]
      dsimp only
      omega
    · rw [powerSum_cons, powerSum_cons]
      exact Nat.add_le_add_left (ih _) _

/-- An excess left over is less than the power of every record left. -/
theorem lt_power_of_excess_left {q : Nat} {rs : List ShareRec} {x : Nat}
    (left : powerSum rs < powerSum (trimLoop q rs x) + x) :
    ∀ r ∈ trimLoop q rs x, powerSum (trimLoop q rs x) + x - powerSum rs < r.power := by
  induction rs generalizing x with
  | nil => simp [trimLoop]
  | cons a t ih =>
    unfold trimLoop at left ⊢
    split_ifs at left ⊢ with done removed reduced
    · omega
    · rw [powerSum_cons] at left ⊢
      have := ih (x := x - a.power) (by omega)
      intro r hr
      have := this r hr
      omega
    · simp only [powerSum_cons] at left
      omega
    · simp only [powerSum_cons] at left ⊢
      have below := powerSum_trimLoop_le q t x
      intro r hr
      rcases List.mem_cons.1 hr with rfl | hr
      · omega
      · have := ih (by omega) r hr
        omega

/-- An excess of at least the whole power removes every record. -/
theorem trimLoop_of_sum_le {q : Nat} {rs : List ShareRec} {x : Nat} (positive : ∀ r ∈ rs, 0 < r.power)
    (h : powerSum rs ≤ x) : trimLoop q rs x = [] := by
  induction rs generalizing x with
  | nil => rfl
  | cons a t ih =>
    rw [powerSum_cons] at h
    have first := positive a List.mem_cons_self
    rw [trimLoop, if_neg (by omega), if_pos (by omega)]
    exact ih (fun r hr => positive r (List.mem_cons_of_mem _ hr)) (by omega)

theorem powerSum_tens {rs : List ShareRec} (h : ∀ r ∈ rs, r.power % 10 = 0) : powerSum rs % 10 = 0 := by
  induction rs with
  | nil => rfl
  | cons a t ih =>
    have first := h a List.mem_cons_self
    have rest := ih fun r hr => h r (List.mem_cons_of_mem _ hr)
    rw [powerSum_cons]
    omega

theorem trimRecords_concat (q target : Nat) (before : List ShareRec) (r : ShareRec) :
    trimRecords q target (before ++ [r]) =
      (trimLoop q (r :: before.reverse) (powerSum before + r.power - target)).reverse := by
  rw [trimRecords, List.reverse_append, powerSum_append]
  simp [powerSum]

/-- Settles O27: by the induction over `trimLoop`, and its equations at the latest record. -/
theorem trimKeepsTheTarget : Obligations.TrimKeepsTheTarget := by
  intro q target rs out
  have sum := trimLoop_sum q rs.reverse (powerSum rs - target)
  rw [powerSum_reverse] at sum
  have outSum : powerSum out = powerSum (trimLoop q rs.reverse (powerSum rs - target)) := powerSum_reverse _
  have mem (r : ShareRec) : r ∈ out ↔ r ∈ trimLoop q rs.reverse (powerSum rs - target) := List.mem_reverse
  have kept (h : powerSum rs ≤ target) : out = rs := by
    show trimRecords q target rs = rs
    rw [trimRecords, Nat.sub_eq_zero_of_le h, trimLoop_zero, List.reverse_reverse]
  refine ⟨kept, fun h => by omega, trimRecords_nums q target rs, fun r hr => ?_, fun tens ten r hr => ?_,
    fun left r hr => ?_, ?_⟩
  · obtain ⟨o, ho, from_⟩ := mem_trimLoop ((mem r).1 hr)
    exact ⟨o, List.mem_reverse.1 ho, from_⟩
  · by_cases h : powerSum rs ≤ target
    · rw [kept h] at hr
      exact tens r hr
    · have whole := powerSum_tens tens
      exact trimLoop_tens (fun r hr => tens r (List.mem_reverse.1 hr)) (by omega) r ((mem r).1 hr)
  · by_cases h : powerSum rs ≤ target
    · rw [kept h] at left
      omega
    · have := lt_power_of_excess_left (by rw [powerSum_reverse]; omega) r ((mem r).1 hr)
      rw [powerSum_reverse] at this
      omega
  · intro before r e positive h excess
    subst e
    have total : powerSum (before ++ [r]) = powerSum before + r.power := by simp [powerSum]
    have out_eq : out = (trimLoop q (r :: before.reverse) excess).reverse := by
      show trimRecords q target (before ++ [r]) = _
      rw [trimRecords_concat, ← total]
    have some : excess ≠ 0 := by omega
    rw [trimLoop, if_neg some] at out_eq
    refine ⟨fun removed => ?_, fun room more => ?_, fun more short => ?_⟩
    · rw [out_eq, if_pos removed, trimRecords]
      congr 2
      omega
    · rw [out_eq, if_neg (by omega), if_pos (by omega)]
      simp
    · rw [out_eq, if_neg (by omega), if_neg (by omega), List.reverse_cons, trimRecords]
      congr 2
      by_cases low : r.power ≤ target
      · congr 1
        omega
      · have positive' : ∀ x ∈ before.reverse, 0 < x.power := fun x hx =>
          positive x (List.mem_append_left _ (List.mem_reverse.1 hx))
        rw [trimLoop_of_sum_le positive' (by rw [powerSum_reverse]; omega),
          trimLoop_of_sum_le positive' (by rw [powerSum_reverse]; omega)]

/-! ### An entry's records replaced (R110; log 18) -/

/-- A record joins between the records up to its entry and those after it. -/
theorem joinShare_between (r : ShareRec) {as bs : List ShareRec} (before : ∀ x ∈ as, ¬r.entry < x.entry)
    (after : ∀ x ∈ bs.head?, r.entry < x.entry) : joinShare r (as ++ bs) = as ++ r :: bs := by
  induction as with
  | nil =>
    cases bs with
    | nil => rfl
    | cons b bs => exact if_pos (after b rfl)
  | cons a as ih =>
    rw [List.cons_append, joinShare, if_neg (before a List.mem_cons_self),
      ih fun x hx => before x (List.mem_cons_of_mem _ hx)]
    rfl

theorem foldl_joinShare_between {n : Nat} {new : List ShareRec} (entry : ∀ r ∈ new, r.entry = n)
    {as bs : List ShareRec} (before : ∀ x ∈ as, ¬n < x.entry) (after : ∀ x ∈ bs.head?, n < x.entry) :
    new.foldl (fun acc r => joinShare r acc) (as ++ bs) = as ++ new ++ bs := by
  induction new generalizing as with
  | nil => simp
  | cons r new ih =>
    have first := entry r List.mem_cons_self
    rw [List.foldl_cons, joinShare_between r (first.symm ▸ before) (first.symm ▸ after),
      List.append_cons, ih (fun q hq => entry q (List.mem_cons_of_mem _ hq)) (fun x hx => ?_)]
    · simp
    · rcases List.mem_append.1 hx with hx | hx
      · exact before x hx
      · obtain rfl := List.mem_singleton.1 hx
        omega

/-- The records of the entry replaced are the new ones; every other entry keeps its records. -/
theorem entryRecords_replaceEntryRecords {n : Nat} {new : List ShareRec} (entry : ∀ r ∈ new, r.entry = n)
    (rs : List ShareRec) (k : Nat) :
    entryRecords (replaceEntryRecords n new rs) k = if k = n then new else entryRecords rs k := by
  set others := rs.filter fun r => r.entry ≠ n with hothers
  set as := others.takeWhile fun r => decide (¬n < r.entry) with has
  set bs := others.dropWhile fun r => decide (¬n < r.entry) with hbs
  have split : as ++ bs = others := List.takeWhile_append_dropWhile
  have notN : ∀ r ∈ others, r.entry ≠ n := fun r hr => by simpa using (List.mem_filter.1 hr).2
  have placed : replaceEntryRecords n new rs = as ++ new ++ bs := by
    show new.foldl (fun acc r => joinShare r acc) others = _
    rw [← split]
    refine foldl_joinShare_between entry (fun x hx => by simpa using List.mem_takeWhile_imp hx) (fun x hx => ?_)
    have := List.head?_dropWhile_not (fun r : ShareRec => decide (¬n < r.entry)) others
    rw [← hbs, Option.mem_def.1 hx] at this
    simpa using this
  have recordsOf (j : Nat) : entryRecords as j ++ entryRecords bs j = entryRecords others j := by
    rw [← split]
    simp [entryRecords]
  rw [placed]
  by_cases hk : k = n
  · subst hk
    have none : entryRecords others k = [] := by
      simpa [entryRecords] using notN
    have parts := recordsOf k
    rw [none, List.append_eq_nil_iff] at parts
    have all : entryRecords new k = new := by simpa [entryRecords] using entry
    simp only [entryRecords, List.filter_append] at parts all ⊢
    rw [parts.1, parts.2, all]
    simp
  · have nothing : entryRecords new k = [] := by
      simpa [entryRecords] using fun r hr => by rw [entry r hr]; exact fun e => hk e.symm
    have same : entryRecords others k = entryRecords rs k := by
      rw [hothers]
      simp only [entryRecords, List.filter_filter]
      refine List.filter_congr fun r _ => ?_
      by_cases hr : r.entry = k <;> simp [hr, hk]
    rw [if_neg hk, ← same, ← recordsOf k]
    simp only [entryRecords, List.filter_append] at nothing ⊢
    rw [nothing]
    simp

theorem entry_of_mem_trimRecords {q target n : Nat} {rs : List ShareRec} {r : ShareRec}
    (h : r ∈ trimRecords q target (entryRecords rs n)) : r.entry = n := by
  obtain ⟨o, ho, same, -⟩ := mem_trimLoop (List.mem_reverse.1 h)
  have := (List.mem_filter.1 (List.mem_reverse.1 ho)).2
  rw [same]
  simpa using this

/-! ### AWARD (R63, R64, R88, R110) -/

/-- A running replan of the awarded entry learns of the AWARD, and no other job. -/
theorem noteAward_eq (n : Nat) (s : State) :
    noteAward n s = { s with eval := { s.eval with job := s.eval.job.map fun j => match j.kind with
      | .quote _ => j
      | .offer _ => j
      | .replan m _ => if m = n then { j with awardTaken := true } else j } } := by
  have still {job : Option Job} (h : job = s.eval.job) : s = { s with eval := { s.eval with job := job } } := by rw [h]
  unfold noteAward
  cases job : s.eval.job with
  | none => exact still job.symm
  | some j =>
    dsimp only [Option.map_some]
    cases kind : j.kind with
    | quote q => exact still job.symm
    | offer o => exact still job.symm
    | replan m e =>
      dsimp only
      split_ifs
      · rfl
      · exact still job.symm

/-- Settles O26: by the branches of AWARD, and the replacement of the entry's records by the trimmed ones. -/
theorem awardFixesTheQuantity : Obligations.AwardFixesTheQuantity := by
  intro tag c s n e h hc u a granted target kept
  have answer {t : State} {code : AnswerCode} {result : List Byte}
      (taken : takeAward .tl c u = (t, .answer code result)) :
      exec (.award .tl tag c) s = .next (settle (answered .award .tl tag code result t)) :=
    exec_master_answered (q := .award) h (.inl rfl) rfl hc (by simp) rfl taken tag
  have found {r : State × Reply} (set : s.time.timeSet = true) (names : Names s c n e)
      (award : awardFound n a e u = r) : takeAward .tl c u = r := by
    refine (if_neg (ne_false_of_eq_true set)).trans ?_
    rw [findEntry_frameComplete, findEntry_of_names names, ← award, ← names.1]
  refine ⟨fun unset => answer (if_pos unset), fun set names lapsed => answer (found set names (if_pos lapsed)),
    fun set names notLapsed notOffered => answer (found set names ((if_neg notLapsed).trans (if_pos notOffered))),
    fun set names offered zero => ?_, fun set names offered some => ?_, noteAward_eq n s⟩
  all_goals
    have notLapsed : e.state ≠ .lapsed := by simp [offered]
    have isOffered : ¬e.state ≠ .offered := not_not.2 offered
  · exact answer (found set names ((if_neg notLapsed).trans ((if_neg isOffered).trans (if_pos zero))))
  · have records := entryRecords_replaceEntryRecords (n := n) (new := kept) (fun r => entry_of_mem_trimRecords) s.shares
    exact ⟨replaceEntryRecords n kept s.shares,
      answer (found set names ((if_neg notLapsed).trans ((if_neg isOffered).trans (if_neg some)))),
      (records n).trans (if_pos rfl), fun k hk => (records k).trans (if_neg hk)⟩

/-! ### WITHDRAW and DISCARD (R66, R68) -/

theorem nonTerminal_iff (st : EntryState) :
    nonTerminal st = true ↔ st = .offered ∨ st = .awarded ∨ st = .locked ∨ st = .active := by
  cases st <;> simp [nonTerminal]

theorem recordOwed_iff (n : Nat) (e : Entry) (s : State) : recordOwed n e s = true ↔
    (e.state = .ended ∨ e.state = .released) ∧ (tableFind s.track.held n).isSome = true := by
  simp [recordOwed]

/-- Settles O28: by the branches of WITHDRAW and DISCARD. -/
theorem withdrawAndDiscardEntries : Obligations.WithdrawAndDiscardEntries := by
  intro tag c s n e h hc names u owed T
  have withdraw {t : State} {code : AnswerCode} {result : List Byte}
      (taken : withdrawFound n e u = (t, .answer code result)) :
      exec (.withdraw .tl tag c) s = .next (settle (answered .withdraw .tl tag code result t)) := by
    refine exec_master_answered (q := .withdraw) h (.inl rfl) rfl hc (by simp) rfl ?_ tag
    show takeWithdraw .tl c u = _
    rw [takeWithdraw, findEntry_frameComplete, findEntry_of_names names, ← taken, ← names.1]
  have discard {t : State} {code : AnswerCode} {result : List Byte}
      (taken : discardFound n e u = (t, .answer code result)) :
      exec (.discard .tl tag c) s = .next (settle (answered .discard .tl tag code result t)) := by
    refine exec_master_answered (q := .discard) h (.inl rfl) rfl hc (by simp) rfl ?_ tag
    show takeDiscard .tl c u = _
    rw [takeDiscard, findEntry_frameComplete, findEntry_of_names names, ← taken, ← names.1]
  have owed_iff : recordOwed n e u = true ↔ owed := recordOwed_iff n e u
  refine ⟨fun early => withdraw (if_pos ((beforeGate_iff e).2 early)), fun closed => ?_, fun terminal => ?_,
    fun refused => ?_, fun terminal free => ⟨?_, fun tables k => ?_⟩⟩
  · refine withdraw ((if_neg (mt (beforeGate_iff e).1 ?_)).trans (if_pos ((nonTerminal_iff _).2 ?_)))
    · rcases closed with closed | closed <;> simp [closed]
    · exact .inr (.inr closed)
  · refine withdraw ((if_neg fun early => ?_).trans (if_neg (by simp [terminal])))
    rw [(nonTerminal_iff _).2 (((beforeGate_iff e).1 early).imp_right .inl)] at terminal
    cases terminal
  · by_cases open_ : nonTerminal e.state = true
    · exact discard (if_pos open_)
    · exact discard ((if_neg open_).trans (if_pos (owed_iff.2 (refused.resolve_left open_))))
  · exact discard ((if_neg (by simp [terminal])).trans (if_neg (mt owed_iff.1 free)))
  · exact tableFind_tableErase tables.2.2.2.1 n k

/-! ### RELEASE (R69, R75, R76, R150, R151) -/

theorem raiseOn_keeps {l j : Link} {k m : NoticeKind} {s : State} (h : noticeGet (linkOf s l).notices k = true) :
    noticeGet (linkOf (raiseOn j m s) l).notices k = true := by
  rw [linkOf_raiseOn]
  split_ifs with same
  · subst same
    rw [noticeGet_noticeSet]
    split_ifs
    · rfl
    · exact h
  · exact h

/-- The delivery record queued for an entry's account (R151). -/
theorem emitRecord_cases {s : State} {n : Nat} {e : Entry} (found : entryOf s n = some e) (a : Accumulator)
    (released : Bool) : ∃ ls, emitRecord n a released s = { s with
      track := { s.track with queue :=
        (if 256 ≤ s.track.queue.length then s.track.queue.drop 1 else s.track.queue) ++
          [{ formRecord n e a released with gapBefore := decide (256 ≤ s.track.queue.length) }] }
      links := ls } ∧ (s.track.queue = [] → ls.tl.notices.records = true) := by
  have queued : (if Config.deliveryQueue ≤ s.track.queue.length
      then s.track.queue.drop 1 ++ [{ formRecord n e a released with gapBefore := true }]
      else s.track.queue ++ [formRecord n e a released]) =
      (if 256 ≤ s.track.queue.length then s.track.queue.drop 1 else s.track.queue) ++
        [{ formRecord n e a released with gapBefore := decide (256 ≤ s.track.queue.length) }] := by
    by_cases full : 256 ≤ s.track.queue.length
    · simp [Config.deliveryQueue, full]
    · simp [Config.deliveryQueue, full, formRecord]
  simp only [emitRecord, found]
  dsimp only [appendRecord]
  rw [queued]
  by_cases empty : s.track.queue = []
  · rw [if_pos empty, raiseOn_eq_setLinks]
    exact ⟨_, rfl, fun _ => raiseOn_raised .tl .records _⟩
  · rw [if_neg empty]
    exact ⟨_, rfl, fun h => absurd h empty⟩

/-- What a RELEASE does before the entry is RELEASED: an ACTIVE entry's record is queued (R150). -/
def releaseRecord (n : Nat) (e : Entry) (s : State) : State := if e.state = .active then emitReleased n s else s

theorem releaseRecord_still {n : Nat} {e : Entry} {s : State}
    (h : e.state ≠ .active ∨ tableFind s.track.current n = none) : releaseRecord n e s = s := by
  unfold releaseRecord
  split_ifs with active
  · rw [emitReleased, h.resolve_left (not_not.2 active)]
  · rfl

theorem releaseRecord_cases {n : Nat} {e : Entry} {s : State} {a : Accumulator} (found : entryOf s n = some e)
    (active : e.state = .active) (account : tableFind s.track.current n = some a) :
    ∃ ls, releaseRecord n e s = { s with
      track := { s.track with
        current := tableErase s.track.current n
        queue := (if 256 ≤ s.track.queue.length then s.track.queue.drop 1 else s.track.queue) ++
          [{ formRecord n e a true with gapBefore := decide (256 ≤ s.track.queue.length) }] }
      links := ls } ∧ (s.track.queue = [] → ls.tl.notices.records = true) := by
  rw [releaseRecord, if_pos active, emitReleased, account]
  exact emitRecord_cases (s := { s with track := { s.track with current := tableErase s.track.current n } }) found a true

theorem releaseRecord_frame {n : Nat} {e : Entry} {s : State} (found : entryOf s n = some e) :
    ∃ track links, releaseRecord n e s = { s with track := track, links := links } := by
  by_cases still : e.state ≠ .active ∨ tableFind s.track.current n = none
  · exact ⟨_, _, releaseRecord_still still⟩
  · rw [not_or, not_not] at still
    obtain ⟨a, account⟩ := Option.ne_none_iff_exists'.1 still.2
    obtain ⟨ls, e, -⟩ := releaseRecord_cases found still.1 account
    exact ⟨_, _, e⟩

/-- The book, the records and the notice after a RELEASE, beside the record of an ACTIVE entry. -/
theorem releaseEntry_eq (n : Nat) (e : Entry) (s : State) :
    releaseEntry n e s = raiseOn .tl .entry { releaseRecord n e s with
      book := placeMember n true { (releaseRecord n e s).book with
        entries := tableInsert (releaseRecord n e s).book.entries n { e with state := .released, uncovered := 0 } }
      shares := (releaseRecord n e s).shares.filter fun r => r.entry ≠ n } := rfl

theorem placeMember_full {n : Nat} {b : Book} (full : b.changes.length = 64 ∧ ∀ m ∈ b.changes, m.entry ≠ n)
    (cause : Bool) : placeMember n cause b = { b with more := true } := by
  have absent : ¬(b.changes.any fun m => m.entry == n) = true := by simpa using full.2
  rw [placeMember, if_neg absent, if_neg (by rw [full.1]; decide)]

/-- An entry placed on the list is named there with its cause, and no other entry's member differs (R75, R76). -/
theorem placeMember_placed {n : Nat} {b : Book} (room : ¬(b.changes.length = 64 ∧ ∀ m ∈ b.changes, m.entry ≠ n))
    (bound : b.changes.length ≤ 64) : (placeMember n true b).more = b.more ∧
      ∃ m ∈ (placeMember n true b).changes, m.entry = n ∧ m.causeState = true := by
  unfold placeMember
  split_ifs with listed short
  · refine ⟨rfl, ?_⟩
    obtain ⟨m, hm, same⟩ := List.any_eq_true.1 listed
    exact ⟨_, List.mem_map.2 ⟨m, hm, if_pos (beq_iff_eq.1 same)⟩, beq_iff_eq.1 same, by simp⟩
  · exact ⟨rfl, _, List.mem_append_right _ List.mem_cons_self, rfl, rfl⟩
  · refine absurd ⟨?_, ?_⟩ room
    · have : Config.changeMembers = 64 := rfl
      omega
    · simpa using listed

theorem mem_placeMember {n : Nat} {cause : Bool} {b : Book} {m : ChangeMember} (hm : m ∈ b.changes) (other : m.entry ≠ n) :
    m ∈ (placeMember n cause b).changes := by
  unfold placeMember
  split_ifs
  · exact List.mem_map.2 ⟨m, hm, if_neg other⟩
  · exact List.mem_append_left _ hm
  · exact hm

/-- Settles O29: by `releaseEntry_eq` and what the record of an ACTIVE entry leaves. -/
theorem releaseTakesTheEntryOff : Obligations.ReleaseTakesTheEntryOff := by
  intro tag c s n e h hc names u full
  have answer {t : State} {code : AnswerCode} {result : List Byte}
      (taken : releaseFound n e u = (t, .answer code result)) :
      exec (.release .gl tag c) s = .next (settle (answered .release .gl tag code result t)) := by
    refine exec_master_answered (q := .release) h (.inr rfl) rfl hc (by simp) rfl ?_ tag
    show takeRelease .gl c u = _
    rw [takeRelease, findEntry_frameComplete, findEntry_of_names names, ← taken, ← names.1]
  have found : entryOf u n = some e := by rw [entryOf_frameComplete]; exact names.2.2.1
  obtain ⟨track, links, frame⟩ := releaseRecord_frame found
  refine ⟨fun notAwarded notLocked notActive => answer (if_neg ?_), fun open_ => ⟨releaseEntry n e u,
    answer (if_pos open_), ?_, ?_, raiseOn_raised .tl .entry _, ?_, fun k hk => ?_, ?_, ?_, fun isFull => ?_,
    fun room bound => ?_, fun m hm other => ?_, fun still => ?_, fun a active account => ?_⟩⟩
  · rintro (hs | hs | hs)
    · exact notAwarded hs
    · exact notLocked hs
    · exact notActive hs
  · rw [releaseEntry_eq, raiseOn_eq_setLinks, frame]
  · have emitted : NoticesOnly u (releaseRecord n e u) := by
      unfold releaseRecord
      split_ifs
      · exact (inner_emitReleased n u).links
      · exact .refl u
    rw [releaseEntry_eq]
    refine emitted.trans (.trans ⟨rfl, rfl, fun l => ?_⟩ (noticesOnly_raiseOn ..))
    cases l <;> rfl
  · rw [releaseEntry_eq, entryOf_raiseOn]
    unfold entryOf
    rw [placeMember_entries, tableFind_tableInsert, if_pos rfl]
  · rw [releaseEntry_eq, entryOf_raiseOn, frame]
    unfold entryOf
    rw [placeMember_entries, tableFind_tableInsert, if_neg hk]
    exact entryOf_frameComplete ..
  · rw [releaseEntry_eq, raiseOn_book, placeMember_endurance, frame]
    rfl
  · rw [releaseEntry_eq, raiseOn_shares, frame]
    rfl
  · rw [releaseEntry_eq, raiseOn_book, frame]
    have kept := placeMember_full (b := { u.book with
      entries := tableInsert u.book.entries n { e with state := .released, uncovered := 0 } }) isFull true
    exact ⟨(congrArg Book.changes kept :), (congrArg Book.more kept :)⟩
  · rw [releaseEntry_eq, raiseOn_book, frame]
    exact placeMember_placed room bound
  · rw [releaseEntry_eq, raiseOn_book, frame]
    exact mem_placeMember hm other
  · have same : releaseRecord n e u = u := releaseRecord_still still
    rw [releaseEntry_eq, raiseOn_track, same]
    exact frameComplete_track ..
  · obtain ⟨ls, released, records⟩ := releaseRecord_cases found active account
    intro r
    refine ⟨?_, fun empty => ?_⟩
    · rw [releaseEntry_eq, raiseOn_track, released]
      rfl
    · rw [releaseEntry_eq, released]
      exact raiseOn_keeps (k := .records) (l := .tl) (records empty)

end Sys2Proof.Machine

/-! PROOF. The master links' receivers and transmitters and the channel lines (R32, R166, R170, R175, R177). -/

namespace Sys2Proof.Machine

/-! ### Characters received (R166, R177) -/

/-- The receiver after some characters. -/
def receiverAfter (r : Receiver) (chars : List RxChar) : Receiver :=
  chars.foldl (fun r ch => (receiveChar r ch).1) r

/-- The frames that some characters complete. -/
def framesOf : Receiver → List RxChar → List (Byte × Byte × List Byte)
  | _, [] => []
  | r, ch :: t => (receiveChar r ch).2.toList ++ framesOf (receiveChar r ch).1 t

theorem receiverAfter_append (r : Receiver) (as bs : List RxChar) :
    receiverAfter r (as ++ bs) = receiverAfter (receiverAfter r as) bs :=
  List.foldl_append

theorem framesOf_append (r : Receiver) (as bs : List RxChar) :
    framesOf r (as ++ bs) = framesOf r as ++ framesOf (receiverAfter r as) bs := by
  induction as generalizing r with
  | nil => rfl
  | cons a as ih => simp only [List.cons_append, framesOf, ih, List.append_assoc]; rfl

/-- Reading characters one by one while the frames are gathered. -/
theorem foldl_feed (r : Receiver) (got : List (Byte × Byte × List Byte)) (chars : List RxChar) :
    chars.foldl (fun (p : Receiver × List (Byte × Byte × List Byte)) ch =>
      ((receiveChar p.1 ch).1, p.2 ++ (receiveChar p.1 ch).2.toList)) (r, got) =
      (receiverAfter r chars, got ++ framesOf r chars) := by
  induction chars generalizing r got with
  | nil => simp [receiverAfter, framesOf]
  | cons ch t ih => simp only [List.foldl_cons, ih, framesOf, List.append_assoc]; rfl

theorem foldl_feed_any (r : Receiver) (got : Bool) (chars : List RxChar) :
    chars.foldl (fun (p : Receiver × Bool) ch =>
      ((receiveChar p.1 ch).1, p.2 || (receiveChar p.1 ch).2.isSome)) (r, got) =
      (receiverAfter r chars, got || !(framesOf r chars).isEmpty) := by
  induction chars generalizing r got with
  | nil => simp [receiverAfter, framesOf]
  | cons ch t ih =>
    rw [List.foldl_cons, ih, framesOf]
    cases (receiveChar r ch).2 <;> simp [receiverAfter]

/-- Characters that complete no frame change nothing but the receiver. -/
theorem foldl_receiveLinkChar_silent (l : Link) (chars : List RxChar) (s : State)
    (silent : framesOf (linkOf s l).receiver chars = []) :
    chars.foldl (receiveLinkChar l) s = setReceiver l (receiverAfter (linkOf s l).receiver chars) s := by
  induction chars generalizing s with
  | nil => exact (setLink_linkOf l s).symm
  | cons ch t ih =>
    obtain ⟨none, rest⟩ := List.append_eq_nil_iff.1 silent
    have first : receiveLinkChar l s ch = setReceiver l (receiveChar (linkOf s l).receiver ch).1 s := by
      simp only [receiveLinkChar, Option.toList_eq_nil_iff.1 none]
    rw [List.foldl_cons, first, ih _ (by simpa [setReceiver] using rest)]
    simp [setReceiver, receiverAfter]

theorem receiveByte_of_length {a b : Byte} (h : readU [a, b] 0 2 < 2 ∨ 32 < readU [a, b] 0 2) :
    receiveByte [a, b] = (.hunting, none) := by
  simp only [receiveByte]
  rw [if_neg (by simp), if_pos h]

/-- Settles O50: by the receiver's branches, and the fold over characters that complete no frame. -/
theorem discardedFramesChangeNothing : Obligations.DiscardedFramesChangeNothing := by
  refine ⟨fun l chars s released => ?_, fun l s released => effect_of_released released _, fun b other => if_neg other,
    fun r => by cases r <;> rfl, fun a b out => receiveByte_of_length out, ?_⟩
  · intro feed out silent
    have fed : out = (receiverAfter (linkOf s l).receiver chars,
        false || !(framesOf (linkOf s l).receiver chars).isEmpty) := foldl_feed_any ..
    rw [fed] at silent ⊢
    have none : framesOf (linkOf s l).receiver chars = [] := by simpa using silent
    rw [← setReceiver, ← foldl_receiveLinkChar_silent l chars s none]
    exact effect_of_released released fun s => chars.foldl (receiveLinkChar l) s
  · intro got b all len two most whole wrong
    show receiveByte all = _
    have enough : ¬all.length < 2 := by omega
    have fits : ¬(readU all 0 2 < 2 ∨ 32 < readU all 0 2) := by omega
    have ended : ¬all.length < readU all 0 2 + 4 := by omega
    simp only [receiveByte, if_neg enough, if_neg fits, if_neg ended]
    exact if_neg wrong

/-! ### Frames read back (R177) -/

/-- The bytes of a frame after its start byte. -/
def frameBody (code tag : Byte) (c : List Byte) : List Byte :=
  (putU 2 (c.length + 2) ++ code :: tag :: c) ++ putU 2 (crc16 (putU 2 (c.length + 2) ++ code :: tag :: c)).toNat

theorem length_frameBody (code tag : Byte) (c : List Byte) : (frameBody code tag c).length = c.length + 6 := by
  simp [frameBody]
  omega

theorem putU_two_crc (bs : List Byte) : putU 2 (crc16 bs).toNat = leBytes 2 (crc16 bs).toNat := by
  have fits : (crc16 bs).toNat < 256 ^ 2 := (crc16 bs).isLt
  rw [putU, if_pos fits]

theorem masterFrame_eq (code tag : Byte) (c : List Byte) : masterFrame code tag c = 0xC3#8 :: frameBody code tag c := by
  rw [frameBody, putU_two_crc]
  rfl

/-- The declared length reads from any part of the frame that holds it. -/
theorem readU_take_frameBody {code tag : Byte} {c : List Byte} (short : c.length ≤ 30) {k : Nat} (h : 2 ≤ k) :
    readU ((frameBody code tag c).take k) 0 2 = c.length + 2 := by
  have head : ((frameBody code tag c).take k).take 2 = putU 2 (c.length + 2) := by
    rw [List.take_take, min_eq_left h, frameBody, List.append_assoc, List.take_left' (putU_length ..)]
  rw [readU, List.drop_zero, head, putU, if_pos (by omega), natOfBytes_leBytes]
  omega

theorem receiveByte_of_part {code tag : Byte} {c : List Byte} (short : c.length ≤ 30) {k : Nat}
    (h : k < c.length + 6) : receiveByte ((frameBody code tag c).take k) =
      (.receiving ((frameBody code tag c).take k), none) := by
  have length : ((frameBody code tag c).take k).length = k := by
    rw [List.length_take, length_frameBody]
    omega
  by_cases two : k < 2
  · simp only [receiveByte, length, if_pos two]
  · have len := readU_take_frameBody (code := code) (tag := tag) short (not_lt.1 two)
    simp only [receiveByte, length, len, if_neg two, if_neg (show ¬(c.length + 2 < 2 ∨ 32 < c.length + 2) by omega),
      if_pos (show k < c.length + 2 + 4 by omega)]

theorem receiveByte_of_whole {code tag : Byte} {c : List Byte} (short : c.length ≤ 30) :
    receiveByte (frameBody code tag c) = (.hunting, some (code, tag, c)) := by
  have len : readU (frameBody code tag c) 0 2 = c.length + 2 := by
    have := readU_take_frameBody (code := code) (tag := tag) short (k := c.length + 6) (by omega)
    rwa [List.take_of_length_le (by rw [length_frameBody])] at this
  have covered : (frameBody code tag c).take (c.length + 2 + 2) = putU 2 (c.length + 2) ++ code :: tag :: c := by
    rw [frameBody, List.take_left' (by simp; omega)]
  have check : readU (frameBody code tag c) (c.length + 2 + 2) 2 =
      (crc16 ((frameBody code tag c).take (c.length + 2 + 2))).toNat := by
    rw [covered]
    have := readU_putU (n := 2) (crc16 (putU 2 (c.length + 2) ++ code :: tag :: c)).isLt
      (putU 2 (c.length + 2) ++ code :: tag :: c) []
    rw [List.append_nil] at this
    rw [← this]
    congr 1
  have bytes : frameBody code tag c = putU 2 (c.length + 2) ++ (code :: tag :: c ++
      putU 2 (crc16 (putU 2 (c.length + 2) ++ code :: tag :: c)).toNat) := by simp [frameBody]
  have code_at : (frameBody code tag c).getD 2 0 = code := by rw [bytes]; rfl
  have tag_at : (frameBody code tag c).getD 3 0 = tag := by rw [bytes]; rfl
  have contents : ((frameBody code tag c).drop 4).take c.length = c := by
    rw [bytes]
    exact List.take_left
  simp only [receiveByte, len, length_frameBody, if_neg (show ¬c.length + 6 < 2 by omega),
    if_neg (show ¬(c.length + 2 < 2 ∨ 32 < c.length + 2) by omega), if_neg (show ¬c.length + 6 < c.length + 2 + 4 by omega),
    if_pos check, code_at, tag_at, Nat.add_sub_cancel, contents]

theorem receiverAfter_part {code tag : Byte} {c : List Byte} (short : c.length ≤ 30) {k : Nat}
    (h : k < c.length + 6) : receiverAfter (.receiving []) (((frameBody code tag c).take k).map RxChar.ok) =
      .receiving ((frameBody code tag c).take k) ∧
      framesOf (.receiving []) (((frameBody code tag c).take k).map RxChar.ok) = [] := by
  induction k with
  | zero => exact ⟨rfl, rfl⟩
  | succ k ih =>
    obtain ⟨receiver, frames⟩ := ih (by omega)
    have inside : k < (frameBody code tag c).length := by rw [length_frameBody]; omega
    have next : receiveChar (.receiving ((frameBody code tag c).take k)) (.ok (frameBody code tag c)[k]) =
        (.receiving ((frameBody code tag c).take (k + 1)), none) := by
      show receiveByte ((frameBody code tag c).take k ++ [(frameBody code tag c)[k]]) = _
      rw [← List.take_succ_eq_append_getElem inside]
      exact receiveByte_of_part short h
    rw [List.take_succ_eq_append_getElem inside, List.map_append, receiverAfter_append, framesOf_append, receiver, frames,
      List.map_singleton, ← List.take_succ_eq_append_getElem inside]
    simp only [receiverAfter, framesOf, List.foldl_cons, List.foldl_nil, next, Option.toList_none, List.append_nil,
      and_self]

/-- The bytes of a sent frame but its last put the receiver inside the frame, and complete none. -/
theorem receiverAfter_take_masterFrame {code tag : Byte} {c : List Byte} (short : c.length ≤ 30) {k : Nat}
    (h : k < c.length + 6) :
    receiverAfter .hunting (((masterFrame code tag c).map RxChar.ok).take (k + 1)) =
      .receiving ((frameBody code tag c).take k) ∧
    framesOf .hunting (((masterFrame code tag c).map RxChar.ok).take (k + 1)) = [] := by
  rw [masterFrame_eq, List.map_cons, List.take_succ_cons, ← List.map_take]
  exact receiverAfter_part short h

theorem masterFrame_split {code tag : Byte} {c : List Byte} :
    ∃ last, (masterFrame code tag c).map RxChar.ok =
      ((masterFrame code tag c).map RxChar.ok).take (c.length + 5 + 1) ++ [RxChar.ok last] ∧
      (frameBody code tag c).take (c.length + 5) ++ [last] = frameBody code tag c := by
  have inside : c.length + 5 < (frameBody code tag c).length := by rw [length_frameBody]; omega
  have whole : (frameBody code tag c).take (c.length + 5) ++ [(frameBody code tag c)[c.length + 5]] =
      frameBody code tag c := by
    rw [← List.take_succ_eq_append_getElem inside, List.take_of_length_le (by rw [length_frameBody])]
  refine ⟨(frameBody code tag c)[c.length + 5], ?_, whole⟩
  rw [masterFrame_eq, List.map_cons, List.take_succ_cons, ← List.map_take, List.cons_append, ← List.map_singleton,
    ← List.map_append, whole]

/-- Settles O49: a part of a frame leaves the receiver inside it, and its last byte completes it. -/
theorem masterFramesAreReadBack : Obligations.MasterFramesAreReadBack := by
  refine ⟨Tests.test_crc_check_value, fun code tag c => by rw [masterFrame_eq]; rfl, ?_⟩
  intro code tag c short wire feed
  obtain ⟨last, split, whole⟩ := masterFrame_split (code := code) (tag := tag) (c := c)
  obtain ⟨receiver, frames⟩ := receiverAfter_take_masterFrame (code := code) (tag := tag) short
    (k := c.length + 5) (by omega)
  have ended : receiveChar (.receiving ((frameBody code tag c).take (c.length + 5))) (.ok last) =
      (.hunting, some (code, tag, c)) := by
    show receiveByte ((frameBody code tag c).take (c.length + 5) ++ [last]) = _
    rw [whole, receiveByte_of_whole short]
  refine ⟨by simp [wire, masterFrame_eq, length_frameBody], ?_, fun k hk => ?_, fun l s hunting => ?_⟩
  · refine (foldl_feed ..).trans ?_
    rw [show wire = _ from split, receiverAfter_append, framesOf_append, receiver, frames]
    simp [receiverAfter, framesOf, ended]
  · refine (congrArg Prod.snd (foldl_feed ..)).trans ?_
    cases k with
    | zero => rfl
    | succ k => exact (receiverAfter_take_masterFrame short (by omega)).2
  · have read : wire.foldl (receiveLinkChar l) s = receiveFrame l code tag c s := by
      rw [show wire = _ from split, List.foldl_append, foldl_receiveLinkChar_silent l _ s (by rw [hunting]; exact frames),
        hunting, receiver]
      have same : setReceiver l .hunting s = s := by
        rw [setReceiver, ← hunting]
        exact setLink_linkOf l s
      simp only [List.foldl_cons, List.foldl_nil, receiveLinkChar, setReceiver, linkOf_setLink_self, ended, setLink_setLink]
      exact congrArg (receiveFrame l code tag c) same
    show effect (fun s => wire.foldl (receiveLinkChar l) s) s = effect (receiveFrame l code tag c) s
    simp only [effect, read]

end Sys2Proof.Machine

/-! PROOF. What a free line and a free transmitter take, and the bytes of answers and notices (R32, R170, R175, R177). -/

namespace Sys2Proof.Machine

/-! ### A channel line (R32) -/

theorem kickLine_of_busy {s : State} {k : Nat} (h : (channelOf s k).line ≠ .free) : kickLine s k = s := if_neg h

theorem kickLine_of_next {s : State} {k : Nat} {frame : ChannelFrame} {owner : FrameOwner} {r : ChannelRec}
    (free : (channelOf s k).line = .free) (next : nextFrame (channelOf s k) = some (frame, owner, r)) :
    kickLine s k = setChannel k { r with line := .sending frame owner (channelFrameWire s k frame) } s := by
  rw [kickLine, if_pos free, next]

theorem kickLine_of_none {s : State} {k : Nat} (next : nextFrame (channelOf s k) = none) : kickLine s k = s := by
  rw [kickLine, next]
  exact ite_self s

/-- Settles O52: by the frames that wait on a channel, in their order. -/
theorem freeLineTakesItsNextFrame : Obligations.FreeLineTakesItsNextFrame := by
  intro k s r arm
  refine ⟨kickLine_of_busy, fun free halt => ?_, fun free halt arms => ?_, fun free halt arms exchange => ?_,
    fun d free halt arms exchange starting progress => ?_, fun halt arms exchange idle => ?_⟩
  · exact kickLine_of_next free (if_pos halt)
  · exact kickLine_of_next free ((if_neg (ne_true_of_eq_false halt)).trans (if_pos arms))
  · exact kickLine_of_next free ((if_neg (ne_true_of_eq_false halt)).trans
      ((if_neg (ne_true_of_eq_false arms)).trans (if_pos exchange)))
  · have next : nextFrame (channelOf s k) = some (discoveryFrame r d, .discovery, r) := by
      simp only [nextFrame, show (channelOf s k).haltPending = false from halt,
        show (channelOf s k).armPending = false from arms, show (channelOf s k).exchangePending = false from exchange,
        show (channelOf s k).state = .starting from starting, show (channelOf s k).discovery = some d from progress]
      rfl
    intro drop
    rw [kickLine_of_next free next]
    unfold discoveryFrame
    cases d.step <;> rfl
  · refine kickLine_of_none ?_
    simp only [nextFrame, show (channelOf s k).haltPending = false from halt,
      show (channelOf s k).armPending = false from arms, show (channelOf s k).exchangePending = false from exchange]
    cases state : (channelOf s k).state with
    | starting => exact absurd state idle
    | _ => rfl

/-! ### A transmitter (R170, R175) -/

section

variable {l : Link} {s : State}

theorem kickTx_of_busy (h : (linkOf s l).tx ≠ .free) : kickTx l s = s := if_neg h

variable (free : (linkOf s l).tx = .free)
include free

theorem kickTx_of_telegram {a : Answer} (telegram : (linkOf s l).telegram = some a) :
    kickTx l s = setLink l { linkOf s l with telegram := none, tx := .sending .telegram (answerWire a) } s := by
  simp only [kickTx, if_pos free, telegram]

variable (noTelegram : (linkOf s l).telegram = none)
include noTelegram

theorem kickTx_of_answer {o : OwedAnswer} {rest : List OwedAnswer} (answers : (linkOf s l).answers = o :: rest) :
    kickTx l s = setLink l { linkOf s l with
      answers := rest, tx := .sending (.answer o.ends) (answerWire o.answer) } s := by
  simp only [kickTx, if_pos free, noTelegram, answers]

variable (noAnswer : (linkOf s l).answers = [])
include noAnswer

theorem kickTx_of_busyAnswer {a : Answer} (busy : (linkOf s l).busy = some a) :
    kickTx l s = setLink l { linkOf s l with busy := none, tx := .sending .busy (answerWire a) } s := by
  simp only [kickTx, if_pos free, noTelegram, noAnswer, busy]

variable (noBusy : (linkOf s l).busy = none)
include noBusy

theorem kickTx_of_notice {k : NoticeKind} (first : firstNotice (linkOf s l).notices = some k) :
    kickTx l s = sendNotice l k s := by
  simp only [kickTx, if_pos free, noTelegram, noAnswer, noBusy, first]

theorem kickTx_of_nothing (none : firstNotice (linkOf s l).notices = none) : kickTx l s = s := by
  simp only [kickTx, if_pos free, noTelegram, noAnswer, noBusy, none]

end

/-- The first notice is the first kind of the order whose flag is set. -/
theorem firstNotice_of_split {f : NoticeFlags} {before after : List NoticeKind} {k : NoticeKind}
    (order : kindOrder = before ++ k :: after) (clear : ∀ b ∈ before, noticeGet f b = false) (raised : noticeGet f k = true) :
    firstNotice f = some k := by
  rw [firstNotice, order, List.find?_append, List.find?_eq_none.2 fun b hb => by simp [clear b hb]]
  simp [raised]

/-- A kind's code is its place in the order (R175). -/
theorem noticeCode_of_split {before after : List NoticeKind} {k : NoticeKind}
    (order : kindOrder = before ++ k :: after) : noticeCode k = before.length + 1 := by
  have place : kindOrder[before.length]? = some k := by rw [order]; simp
  have codes : ∀ i < 8, ∀ j, kindOrder[i]? = some j → noticeCode j = i + 1 := by
    intro i hi j hj
    interval_cases i <;> cases hj <;> rfl
  have bound : before.length < 8 := by
    have := congrArg List.length order
    simp [kindOrder] at this
    omega
  exact codes _ bound k place

theorem noticeGet_mem_kindOrder (k : NoticeKind) : k ∈ kindOrder := by
  cases k <;> decide

theorem putFlags_one (b : Bool) : putFlags [b] = putU 1 (if b then 1 else 0) := by
  cases b <;> rfl

theorem putFlags_two (a b : Bool) : putFlags [a, b] = putU 1 ((if a then 1 else 0) + 2 * if b then 1 else 0) := by
  cases a <;> cases b <;> rfl

/-- The bytes of an answer (R177). -/
theorem answerWire_eq (a : Answer) : answerWire a = masterFrame 0x80#8 a.tag
    (([(1, answerCode a.code), (1, (if a.time.timeSet then 1 else 0) + 2 * if a.time.holdover then 1 else 0),
      (4, a.time.slot), (2, a.time.second)].flatMap fun p => putU p.1 p.2) ++ a.result) := by
  simp only [answerWire, putTime, putFlags_two, List.flatMap_cons, List.flatMap_nil, List.append_nil, List.append_assoc]

/-- Settles O51: by the equations of a transmitter, and the forms of answers and notices. -/
theorem transmitterServesInOrder : Obligations.TransmitterServesInOrder := by
  refine ⟨?answer, fun l tag code result ends s => rfl, ?notice,
    fun l s => ⟨fun wire released sending => ?ended, fun kind wire released sending other => ?freed, kickTx_of_busy,
      fun a free => kickTx_of_telegram free, fun o rest free noTelegram => kickTx_of_answer free noTelegram,
      fun a free noTelegram noAnswer => kickTx_of_busyAnswer free noTelegram noAnswer, ?first,
      fun free noTelegram noAnswer noBusy clear => ?none⟩⟩
  case answer =>
    intro a bit
    refine (answerWire_eq a).trans ?_
    unfold answerCode
    rfl
  case notice =>
    intro s bit fields
    refine ⟨?_, rfl, ?_, ?_, ?_, rfl, rfl, rfl⟩
    · simp only [noticeContents, putFlags_one, putFlags_two, fields, bit, List.flatMap_cons, List.flatMap_nil,
        List.append_nil]
    · exact (List.take_append_drop 6 _).symm.trans (congrArg _ (List.drop_left' (by simp [channelMask, putFlags])))
    · simp only [noticeContents, fields, bit, List.flatMap_cons, List.flatMap_nil, List.append_nil]
    · simp only [noticeContents, fields, bit, List.flatMap_cons, List.flatMap_nil, List.append_nil, List.append_assoc]
  case ended =>
    refine (effect_of_released released (endSending l)).trans ?_
    rw [endSending, show (linkOf s l).tx = _ from sending]
  case freed =>
    refine (effect_of_released released (endSending l)).trans ?_
    rw [endSending, show (linkOf s l).tx = _ from sending]
    cases kind with
    | answer ends =>
      cases ends with
      | true => exact absurd rfl other
      | false => rfl
    | _ => rfl
  case first =>
    intro before k after free noTelegram noAnswer noBusy order clear raised sent
    set r := linkOf s l
    rw [kickTx_of_notice free noTelegram noAnswer noBusy (firstNotice_of_split order clear raised)]
    have wire : noticeWire k (timeStatus s) (noticeContents s k) = masterFrame 0x81#8 0#8
        (putU 1 (before.length + 1) ++
          putU 1 ((if s.time.timeSet then 1 else 0) + if s.time.holdover then 2 else 0) ++
            putU 4 s.time.slot ++ putU 2 s.time.second ++ noticeContents s k) := by
      have twice (b : Bool) : (2 * if b then 1 else 0) = if b then 2 else 0 := by cases b <;> rfl
      rw [noticeWire, noticeCode_of_split order, putTime, putFlags_two, twice]
      simp only [timeStatus, List.append_assoc]
      rfl
    simp only [sendNotice, wire, emptyChanges, setLink_book, sent, r]
  case none =>
    exact kickTx_of_nothing free noTelegram noAnswer noBusy
      (List.find?_eq_none.2 fun k _ => by rw [clear k]; simp)

end Sys2Proof.Machine

/-! PROOF. The requests and events of the dispatcher and the margin monitor: DEADBAND, OVERRIDE, CLEAR, ACTIVATE, the
frequency samples, MARGIN, LINE_MODE, THRESHOLDS and LOCK_SHORT (R122 to R130, R156 to R158). -/

namespace Sys2Proof.Machine

/-- A request of GL with its own length ends with the answer its block gives it. -/
theorem exec_gl_answered {q : Request} {c : List Byte} {s t : State} {code : AnswerCode} {result : List Byte}
    (h : CanTake s .gl) (ha : allowed q .operator = true) (hc : c.length = contentsLength q)
    (notActivate : q ≠ .activate) (hx : contentsRefusal c q = none)
    (taken : takeOf q .gl c (frameComplete .gl s) = (t, .answer code result)) (tag : Byte) :
    exec (commandOf q .gl tag c) s = .next (settle (answered q .gl tag code result t)) :=
  exec_master_answered h (.inr rfl) ha hc notActivate hx taken tag

/-! ### DEADBAND, OVERRIDE and CLEAR (R125, R129, R130) -/

theorem channelOf_haltChannel (s : State) (c k : Nat) : channelOf (haltChannel s c) k =
    if k = c then { channelOf s c with haltPending := true, armPending := true } else channelOf s k :=
  channelOf_setChannel_listed (by simp [ChannelRec.reset]) c k s

theorem foldl_haltChannel_frame (cs : List Nat) (s : State) : ∃ channels,
    cs.foldl haltChannel s = { s with ctl := { s.ctl with channels := channels } } := by
  induction cs generalizing s with
  | nil => exact ⟨_, rfl⟩
  | cons c cs ih =>
    obtain ⟨channels, e⟩ := ih (haltChannel s c)
    exact ⟨channels, e⟩

theorem channelOf_raiseOverride (s : State) (k : Nat) : channelOf (raiseOverride s) k = channelOf s k :=
  channelOf_congr (aside_raiseOverride s).channels k

/-- Settles O35: by the branches of the three requests, and HALT's fold over the channels in rounds. -/
theorem overrideIsExclusive : Obligations.OverrideIsExclusive := by
  intro tag c s h u v raised
  have deadband {t : State} {code : AnswerCode} {result : List Byte} (hc : c.length = 2)
      (taken : takeDeadband .gl c u = (t, .answer code result)) :
      exec (.deadband .gl tag c) s = .next (settle (answered .deadband .gl tag code result t)) :=
    exec_gl_answered (q := .deadband) h rfl hc (by simp) rfl taken tag
  have override {t : State} {code : AnswerCode} {result : List Byte} (hc : c.length = 1)
      (taken : takeOverride .gl c u = (t, .answer code result)) :
      exec (.override .gl tag c) s = .next (settle (answered .override .gl tag code result t)) :=
    exec_gl_answered (q := .override) h rfl hc (by simp) rfl taken tag
  have clear {t : State} {code : AnswerCode} {result : List Byte} (hc : c.length = 0)
      (taken : takeClear .gl c u = (t, .answer code result)) :
      exec (.clear .gl tag c) s = .next (settle (answered .clear .gl tag code result t)) :=
    exec_gl_answered (q := .clear) h rfl hc (by simp) rfl taken tag
  have put {o : Override} (known : overrideOf (readU c 0 1) = some o) (none : s.disp.override = .none) :
      takeOverride .gl c u = (putOverride o u, done (putU 1 (overrideCode o))) := by
    rw [takeOverride, known]
    exact if_neg (not_not.2 none)
  refine ⟨fun hc query => deadband hc (if_pos query), fun hc change out => deadband hc ?_,
    fun hc change fits => deadband hc ?_, fun hc unknown => override hc (by rw [takeOverride, unknown]; rfl),
    fun hc known active => override hc ?_, fun hc full none => override hc ((put full none).trans rfl),
    fun hc halt none => ⟨_, override hc (put halt none), ?_⟩, fun hc none => clear hc (if_pos none),
    fun hc active => clear hc (if_neg active)⟩
  · exact (if_neg (ne_false_of_eq_true change)).trans (if_pos out)
  · exact (if_neg (ne_false_of_eq_true change)).trans (if_neg (not_lt.2 fits))
  · obtain ⟨o, known⟩ := Option.ne_none_iff_exists'.1 known
    rw [takeOverride, known]
    exact if_pos active
  · set w := raiseOverride { u with disp := { u.disp with override := .halt } } with hw
    have ctl : w.ctl = s.ctl := by simp [hw, raiseOverride, raiseTlGl, u]
    have channels (k : Nat) : channelOf w k = channelOf s k := channelOf_congr (congrArg Controller.channels ctl) k
    obtain ⟨cs, frame⟩ := foldl_haltChannel_frame (roundChannels w) w
    have halted : putOverride .halt u = (roundChannels w).foldl haltChannel w := by
      dsimp only [putOverride]
      rw [if_pos rfl]
    refine ⟨?_, ?_, fun k => ?_⟩
    · rw [halted, frame, ← ctl]
      rfl
    · rw [halted, frame, ← ctl]
    · rw [halted, channelOf_foldl (g := fun r => { r with haltPending := true, armPending := true }) (fun r => rfl)
        channelOf_haltChannel]
      simp only [mem_roundChannels, InRounds, channels]

/-! ### ACTIVATE on GL (R126, R169) -/

/-- The sending of a frame's beginning ends no request. -/
theorem inProcess_kickTx (l j : Link) (s : State) :
    (linkOf (kickTx l s) j).inProcess = (linkOf s j).inProcess := by
  have written {r : LinkRec} (h : r.inProcess = (linkOf s l).inProcess) :
      (linkOf (setLink l r s) j).inProcess = (linkOf s j).inProcess := by
    by_cases same : j = l
    · subst same
      rw [linkOf_setLink_self, h]
    · rw [linkOf_setLink_ne same]
  by_cases free : (linkOf s l).tx = .free
  · cases telegram : (linkOf s l).telegram with
    | some a => rw [kickTx_of_telegram free telegram]; exact written rfl
    | none =>
      cases answers : (linkOf s l).answers with
      | cons o rest => rw [kickTx_of_answer free telegram answers]; exact written rfl
      | nil =>
        cases busy : (linkOf s l).busy with
        | some a => rw [kickTx_of_busyAnswer free telegram answers busy]; exact written rfl
        | none =>
          cases first : firstNotice (linkOf s l).notices with
          | none => rw [kickTx_of_nothing free telegram answers busy first]
          | some k =>
            rw [kickTx_of_notice free telegram answers busy first]
            have sent := written (r := { linkOf s l with
              notices := noticeSet (linkOf s l).notices k false
              tx := .sending (.notice k) (noticeWire k (timeStatus s) (noticeContents s k)) }) rfl
            dsimp only [sendNotice]
            split_ifs
            · refine Eq.trans ?_ sent
              cases j <;> rfl
            · exact sent
  · rw [kickTx_of_busy free]

theorem inProcess_settle (s : State) (j : Link) : (linkOf (settle s) j).inProcess = (linkOf s j).inProcess := by
  rw [settle_eq, inProcess_kickTx, inProcess_kickTx, inProcess_kickTx, inProcess_kickTx]
  have links : (arbitrate (kickLines s)).links = s.links := by rw [arbitrate_links, kickLines_frame]
  cases j <;> simp [linkOf, links]

/-- A telegram that keeps alive or names a product stores what it names and ends a silence. -/
theorem takeActivate_taken {c : List Byte} (valid : readBit c 0 0 = true ∨ readU c 1 1 = 2 ∨ readU c 1 1 = 3)
    (l : Link) (s : State) : takeActivate l c s =
      (endSilence (storeRequested (readBit c 0 0) (readU c 1 1) (readU c 2 2) s),
        done (telegramForm (endSilence (storeRequested (readBit c 0 0) (readU c 1 1) (readU c 2 2) s)))) := by
  refine if_neg ?_
  rintro ⟨keep, notTwo, notThree⟩
  rcases valid with valid | valid | valid
  · rw [keep] at valid
    cases valid
  · exact notTwo valid
  · exact notThree valid

theorem storeRequested_eq (keep : Bool) (p r : Nat) (h : keep = true ∨ p = 2 ∨ p = 3) (s : State) :
    storeRequested keep p r s = { s with disp := { s.disp with
      requestedU := if keep = false ∧ p = 2 then r else s.disp.requestedU
      requestedD := if keep = false ∧ p = 3 then r else s.disp.requestedD } } := by
  unfold storeRequested
  cases keep with
  | true => simp
  | false =>
    rcases h with h | rfl | rfl
    · cases h
    · simp
    · simp

theorem linkOf_raiseTlGl_inProcess (k : NoticeKind) (s : State) (l : Link) :
    (linkOf (raiseTlGl k s) l).inProcess = (linkOf s l).inProcess := by
  rw [(aside_raiseTlGl k s).links l]

/-- Settles O36: by the branches of a telegram, none of which ends the request in process. -/
theorem telegramIsTakenAtOnce : Obligations.TelegramIsTakenAtOnce := by
  intro tag c s released u keep p r ru rd T
  have taken : exec (.activate .gl tag c) s = .next (settle (receiveTelegram tag c s)) := effect_of_released released _
  have wrong (len : c.length ≠ 4) : receiveTelegram tag c s = oweTelegram tag .badRequest [] u := if_pos len
  have unknown (len : c.length = 4) (notKeep : keep = false) (notTwo : p ≠ 2) (notThree : p ≠ 3) :
      receiveTelegram tag c s = oweTelegram tag .badRequest [] u := by
    have refused : takeActivate .gl c u = (u, .answer .badRequest []) := if_pos ⟨notKeep, notTwo, notThree⟩
    refine (if_neg (not_not.2 len)).trans ?_
    rw [refused]
  have stored (len : c.length = 4) (valid : keep = true ∨ p = 2 ∨ p = 3) : receiveTelegram tag c s =
      oweTelegram tag .done (putU 2 ru ++ putU 2 rd ++ putU 1 0 ++ putU 1 (overrideCode s.disp.override))
        (if s.disp.silent then raiseTlGl .operatorSilent T else T) := by
    refine (if_neg (not_not.2 len)).trans ?_
    rw [takeActivate_taken valid, storeRequested_eq _ _ _ valid]
    have ended : endSilence { u with disp := { u.disp with requestedU := ru, requestedD := rd } } =
        if s.disp.silent then raiseTlGl .operatorSilent T else T := rfl
    have disp : (if s.disp.silent then raiseTlGl .operatorSilent T else T).disp = T.disp := by
      split_ifs
      · simp [raiseTlGl]
      · rfl
    refine (congrArg (fun x => oweTelegram tag .done (telegramForm x) x) ended).trans ?_
    rw [telegramForm, disp]
    rfl
  refine ⟨fun len => by rw [taken, wrong len], fun len notKeep notTwo notThree => by
    rw [taken, unknown len notKeep notTwo notThree], fun len valid => by rw [taken, stored len valid], fun t e => ?_⟩
  rw [taken] at e
  obtain rfl := Host.Outcome.next.inj e
  rw [inProcess_settle]
  have owed (code : AnswerCode) (result : List Byte) (w : State) (same : (linkOf w .gl).inProcess = (linkOf s .gl).inProcess) :
      (linkOf (oweTelegram tag code result w) .gl).inProcess = (linkOf s .gl).inProcess := by
    rw [oweTelegram, linkOf_setLink_self]
    exact same
  have complete : (linkOf u .gl).inProcess = (linkOf s .gl).inProcess := linkOf_frameComplete_inProcess ..
  by_cases len : c.length = 4
  · by_cases valid : keep = true ∨ p = 2 ∨ p = 3
    · rw [stored len valid]
      refine owed _ _ _ ?_
      split_ifs
      · rw [linkOf_raiseTlGl_inProcess]
        exact complete
      · exact complete
    · rw [not_or, not_or, Bool.not_eq_true] at valid
      rw [unknown len valid.1 valid.2.1 valid.2.2]
      exact owed _ _ _ complete
  · rw [wrong len]
    exact owed _ _ _ complete

/-! ### Frequency samples, their watch and the silence timer (R122, R123, R127, R179) -/

theorem sampleByte_silent {s : State} {b : Byte} {r : SampleReceiver}
    (h : receiveSampleByte s.disp.receiver b = (r, none)) :
    sampleByte s b = { s with disp := { s.disp with receiver := r } } := by
  simp only [sampleByte, h]

theorem sampleByte_sample {s : State} {b : Byte} {r : SampleReceiver} {d : Int}
    (h : receiveSampleByte s.disp.receiver b = (r, some d)) :
    sampleByte s b = takeSample d { s with disp := { s.disp with receiver := r } } := by
  simp only [sampleByte, h]

/-- The start byte and three more bytes are held until the fifth. -/
theorem foldl_sampleByte_four {s : State} (hunting : s.disp.receiver = .hunting) (a b k : Byte) :
    [0x96#8, a, b, k].foldl sampleByte s = { s with disp := { s.disp with receiver := .receiving [a, b, k] } } := by
  have start : sampleByte s 0x96#8 = { s with disp := { s.disp with receiver := .receiving [] } } :=
    sampleByte_silent (by rw [hunting]; rfl)
  rw [List.foldl_cons, start]
  rfl

/-- Settles O37: by the five steps of the sample receiver, and the two timers' events. -/
theorem samplesAreHeldOrLost : Obligations.SamplesAreHeldOrLost := by
  refine ⟨fun a b k m s released hunting => ?_, fun s released => ⟨effect_of_released released _, fun runs => ?_,
    fun idle => ?_, fun runs => ?_, fun idle => ?_⟩⟩
  · intro d good T
    have read : [0x96#8, a, b, k, m].foldl sampleByte s =
        if good then (if s.disp.freqLost then raiseTlGl .freqLost T else T) else s := by
      have last : [0x96#8, a, b, k, m].foldl sampleByte s =
          sampleByte { s with disp := { s.disp with receiver := .receiving [a, b, k] } } m :=
        congrArg (fun t => sampleByte t m) (foldl_sampleByte_four hunting a b k)
      have still : { s with disp := { s.disp with receiver := .hunting } } = s := by rw [← hunting]
      rw [last]
      by_cases check : readU [k, m] 0 2 = (crc16 [a, b]).toNat
      · have sampled : receiveSampleByte (.receiving [a, b, k]) m = (.hunting, some d) := if_pos check
        rw [sampleByte_sample sampled]
        refine (congrArg (takeSample d) still).trans ?_
        rw [takeSample]
        have valid : validDeviation d = true ↔ good := by simp [validDeviation, good, check]
        by_cases h : good
        · rw [if_pos h, if_pos (valid.2 h)]
        · rw [if_neg h, if_neg (mt valid.1 h)]
      · have dropped : receiveSampleByte (.receiving [a, b, k]) m = (.hunting, none) := if_neg check
        rw [sampleByte_silent dropped, if_neg fun h => check h.1]
        exact still
    have taken : exec (.frequencySample [0x96#8, a, b, k, m]) s =
        .next (settle ([0x96#8, a, b, k, m].foldl sampleByte s)) :=
      effect_of_released released fun s => [0x96#8, a, b, k, m].foldl sampleByte s
    rw [taken, read]
    exact ⟨fun h => by rw [if_pos h], fun h => by rw [if_neg h]⟩
  · exact (effect_of_released released takeFrequencyWatch).trans (by rw [takeFrequencyWatch, if_pos runs])
  · exact (effect_of_released released takeFrequencyWatch).trans (by rw [takeFrequencyWatch, if_neg (by simp [idle])])
  · exact (effect_of_released released takeSilence).trans (by rw [takeSilence, if_pos runs])
  · exact (effect_of_released released takeSilence).trans (by rw [takeSilence, if_neg (by simp [idle])])

/-! ### MARGIN and LINE_MODE (R156, R158) -/

/-- The line after LINE_MODE's value (R156). -/
theorem takeLineMode_cases (c : List Byte) (l : Link) (s : State) : takeLineMode l c s =
    if 2 < readU c 0 1 then (s, refuse .badRequest)
    else
      let m := s.margin
      let m' : MarginMonitor :=
        if readU c 0 1 = 1 ∧ m.mode = .latched then
          { m with mode := .level, asserted := decide (m.overall = .thin ∨ m.overall = .short) }
        else if readU c 0 1 = 2 ∧ m.mode = .level then { m with mode := .latched, asserted := false }
        else m
      ({ s with margin := m' }, done (lineForm m')) := by
  unfold takeLineMode
  rcases h : readU c 0 1 with _ | _ | _ | v
  · simp
  · cases mode : s.margin.mode
    · simp [storeMode, mode]
    · cases overall : s.margin.overall <;> simp [storeMode, mode, overall]
  · cases mode : s.margin.mode <;> simp [storeMode, mode]
  · simp

/-- Settles O43: by the two requests' branches, and the fields of the margin form. -/
theorem marginIsReadAndItsLineSet : Obligations.MarginIsReadAndItsLineSet := by
  refine ⟨fun l tag c s h => ?_, fun m => ?_⟩
  · intro u m after stored
    have margin {t : State} (hl : l = .tl ∨ l = .gl) (hc : c.length = 0)
        (taken : takeMargin l c u = (t, .answer .done (marginForm m))) :
        exec (.margin l tag c) s = .next (settle (answered .margin l tag .done (marginForm m) t)) :=
      exec_master_answered (q := .margin) h hl (by rcases hl with rfl | rfl <;> rfl) hc (by simp) rfl taken tag
    have same : u.margin = m := frameComplete_margin ..
    refine ⟨fun hl hc level => margin hl hc ?_, fun hl hc latched => margin hl hc ?_, ?_⟩
    · have still : { u with margin := { u.margin with asserted := m.asserted } } = u := by rw [← same]
      rw [takeMargin, same, lineAfterRead, level]
      exact congrArg (·, done (marginForm m)) (by rw [← same] at still ⊢)
    · have line : lineAfterRead m = false := by rw [lineAfterRead, latched]
      rw [takeMargin, same, line]
      rfl
    · rintro rfl hc v m'
      have lineMode {t : State} {code : AnswerCode} {result : List Byte}
          (taken : takeLineMode .gl c u = (t, .answer code result)) :
          exec (.lineMode .gl tag c) s = .next (settle (answered .lineMode .gl tag code result t)) :=
        exec_gl_answered (q := .lineMode) h rfl hc (by simp) rfl taken tag
      refine ⟨fun out => lineMode ((takeLineMode_cases ..).trans (if_pos out)),
        fun fits => lineMode ((takeLineMode_cases ..).trans (if_neg (not_lt.2 fits)))⟩
  · intro state direction
    refine ⟨by simp [marginForm, marginDirForm], by cases m.mode <;> rfl, ?_⟩
    have code (x : MarginState) : state x = putU 1 (marginCode x) := by cases x <;> rfl
    have dir (d : MarginDir) : direction d = marginDirForm d := by rw [marginDirForm, ← code]
    rw [marginForm, dir, dir, code]

/-! ### THRESHOLDS and LOCK_SHORT (R157) -/

/-- Settles O44: by the branches of the two requests, and by `Safe.lock` for every command but RESET. -/
theorem thresholdsClampAndLock : Obligations.ThresholdsClampAndLock := by
  refine ⟨fun tag c s h => ?_, fun i s t notReset lock e => (safe_exec e notReset).lock lock⟩
  intro u m change warn short hyst form bad locked w t m'
  have thresholds {v : State} {code : AnswerCode} {result : List Byte} (hc : c.length = 6)
      (taken : takeThresholds .gl c u = (v, .answer code result)) :
      exec (.thresholds .gl tag c) s = .next (settle (answered .thresholds .gl tag code result v)) :=
    exec_gl_answered (q := .thresholds) h rfl hc (by simp) rfl taken tag
  have bad_iff : thresholdsOutOfRange (readThresholds c) = true ↔ bad := by
    rw [thresholdsOutOfRange_iff]
    refine or_congr .rfl (or_congr .rfl (and_congr .rfl ?_))
    simp [readThresholds, hyst]
  have stored : storeThresholds (readThresholds c) m = m' := by
    have larger : (if w < t then t else w) = max w t := by split_ifs <;> omega
    have smaller : (if w < t then w else t) = min w t := by split_ifs <;> omega
    have warn_eq : (storeThresholds (readThresholds c) m).warn = m'.warn := by
      show (if w < t ∧ m.lock = true then t else w) = if m.lock = true then max w t else w
      cases m.lock <;> simp [larger]
    have short_eq : (storeThresholds (readThresholds c) m).short = m'.short := by
      show (if w < t ∧ m.lock = false then w else t) = if m.lock = true then t else min w t
      cases m.lock <;> simp [smaller]
    exact congrArg₂ (fun a b => { m' with warn := a, short := b }) warn_eq short_eq
  refine ⟨fun hc out => thresholds hc (if_pos (bad_iff.2 out)),
    fun hc fits refused => thresholds hc ((if_neg (mt bad_iff.1 fits)).trans (if_pos refused)),
    fun hc fits free => thresholds hc ((if_neg (mt bad_iff.1 fits)).trans ((if_neg free).trans ?_)),
    fun hc => exec_gl_answered (q := .lockShort) h rfl hc (by simp) rfl rfl tag⟩
  show ({ u with margin := storeThresholds (readThresholds c) m }, done (thresholdsForm (storeThresholds (readThresholds c) m))) = _
  rw [stored]
  rfl

end Sys2Proof.Machine

/-! PROOF. Owner settings: how SET finds, merges, applies and queues a setting, and what a value applied to a unit
changes (R20, R21, R160 to R162). -/

namespace Sys2Proof.Machine

/-! ### SET (R160) -/

/-- The queue entry that a setting merges with is replaced where it stands; no other is touched. -/
theorem mergeQueued_single {l : Link} {i : Nat} {x : Setting} {before after : List QueuedSetting} {q : QueuedSetting}
    (same : queuedFor i x q = true) (others : ∀ k ∈ before ++ after, queuedFor i x k = false) :
    mergeQueued l i x (before ++ q :: after) = before ++ { origin := l, unit := i, setting := x } :: after := by
  have kept (ks : List QueuedSetting) (h : ∀ k ∈ ks, queuedFor i x k = false) : mergeQueued l i x ks = ks :=
    (List.map_congr_left fun k hk => if_neg (ne_true_of_eq_false (h k hk))).trans (List.map_id ks)
  have first := kept before fun k hk => others k (List.mem_append_left _ hk)
  have last := kept after fun k hk => others k (List.mem_append_right _ hk)
  unfold mergeQueued at *
  rw [List.map_append, List.map_cons, first, last, if_pos same]

/-- The position at which a setting merges. -/
theorem findIdx_queuedFor {i : Nat} {x : Setting} {before after : List QueuedSetting} {q : QueuedSetting}
    (same : queuedFor i x q = true) (others : ∀ k ∈ before, queuedFor i x k = false) :
    (before ++ q :: after).findIdx (queuedFor i x) = before.length := by
  have none : before.findIdx (queuedFor i x) = before.length := List.findIdx_eq_length.2 others
  rw [List.findIdx_append, none, if_neg (lt_irrefl _), List.findIdx_cons, same]
  simp

/-- Settles O45: by the refusals of the map and of the field, and the four outcomes of `handleSetting`. -/
theorem settingIsAppliedMergedOrQueued : Obligations.SettingIsAppliedMergedOrQueued := by
  intro l tag c s m h hm hc u i form
  have fleet : classOf l = .fleet := by
    cases l with
    | tl => cases hm
    | gl => cases hm
    | fa => rfl
    | fb => rfl
  have answer {t : State} {code : AnswerCode} {result : List Byte} (may : permitted m i = true)
      (taken : takeSet l c u = (t, .answer code result)) :
      exec (.set l tag c) s = .next (settle (answered .set l tag code result t)) :=
    receiveRequest_fleet_answered h hm (q := .set) rfl hc rfl may taken tag
  refine ⟨fun no => ?_, fun may unknown => answer may ?_, fun x may known => ?_⟩
  · refine receiveRequest_refused h ?_ _ tag
    simp [frameRefusal, fleet, hc, hm, namesPermitted, contentsRefusal, no, i, allowed, contentsLength]
  · unfold takeSet
    rw [unknown]
    rfl
  intro held same
  have set : takeSet l c u = handleSetting l i x u := by
    unfold takeSet
    rw [known]
  have same_iff (q : QueuedSetting) : queuedFor i x q = true ↔ same q := by
    simp [queuedFor, same]
  have differs {q : QueuedSetting} (no : ¬same q) : queuedFor i x q = false :=
    Bool.eq_false_iff.2 (mt (same_iff q).1 no)
  have held_iff : holdsRecord u i = true ↔ held := by
    simp [holdsRecord, held, u]
  have queue : u.queue = s.queue := frameComplete_queue l s
  have apart (no : ∀ k ∈ s.queue, ¬same k) : ¬u.queue.any (queuedFor i x) = true := by
    rw [queue, List.any_eq_true]
    exact fun ⟨k, hk, e⟩ => no k hk ((same_iff k).1 e)
  refine ⟨?_, ?_, ?_, fun no holds full => answer may (set.trans ?_)⟩
  · intro before q after split found others T
    refine answer may (set.trans ?_)
    have merged : mergeSetting l i x u = T := by
      dsimp only [mergeSetting, T]
      rw [queue, split, mergeQueued_single ((same_iff q).2 found) fun k hk => differs (others k hk)]
    have place : u.queue.findIdx (queuedFor i x) = before.length := by
      rw [queue, split]
      exact findIdx_queuedFor ((same_iff q).2 found) fun k hk => differs (others k (List.mem_append_left _ hk))
    have some : u.queue.any (queuedFor i x) = true := by
      rw [queue, split, List.any_eq_true]
      exact ⟨q, by simp, (same_iff q).2 found⟩
    refine (if_pos some).trans ?_
    rw [merged, place]
    simp [form, setForm, limitsForm, done]
  · intro no free T
    refine answer may (set.trans ?_)
    refine (if_neg (apart no)).trans ((if_pos (Bool.eq_false_iff.2 (mt held_iff.1 free))).trans ?_)
    simp [form, setForm, limitsForm, done, T, u]
  · intro no holds room T
    refine answer may (set.trans ?_)
    refine (if_neg (apart no)).trans ((if_neg (by simp [held_iff.2 holds])).trans
      ((if_neg (by rw [queue]; exact not_le.2 room)).trans ?_))
    have appended : appendSetting l i x u = T := by
      dsimp only [appendSetting, T]
      rw [queue]
    rw [appended, queue]
    simp [form, setForm, limitsForm, done]
  · exact (if_neg (apart no)).trans ((if_neg (by simp [held_iff.2 holds])).trans (if_pos (by rw [queue]; exact full)))

/-! ### A value applied to a unit (R161, R162) -/

theorem settingApplied_empty {u : UnitRec} (h : u.state = .empty) (running : Bool) (x : Setting) :
    settingApplied running x u = u :=
  if_pos h

theorem settingApplied_listed {u : UnitRec} (h : u.state ≠ .empty) (running : Bool) (x : Setting) :
    settingApplied running x u = match x with
      | .floor v => applyFloor v u
      | .ceiling v => applyCeiling v u
      | .excluded b => applyExcluded running b u := by
  unfold settingApplied
  exact if_neg h

theorem state_settingApplied (running : Bool) (x : Setting) (u : UnitRec) :
    (settingApplied running x u).state = u.state := by
  unfold settingApplied
  split_ifs with empty
  · rfl
  · cases x with
    | floor v => rfl
    | ceiling v => rfl
    | excluded b =>
      dsimp only [applyExcluded]
      split_ifs <;> rfl

theorem limitsHold_settingApplied (running : Bool) (x : Setting) {u : UnitRec} (h : LimitsHold u) :
    LimitsHold (settingApplied running x u) := by
  obtain ⟨floor, gap, ceiling⟩ := h
  unfold settingApplied
  split_ifs with empty
  · exact ⟨floor, gap, ceiling⟩
  · cases x with
    | floor v => unfold LimitsHold applyFloor; dsimp only; omega
    | ceiling v => unfold LimitsHold applyCeiling; dsimp only; omega
    | excluded b =>
      dsimp only [applyExcluded]
      split_ifs <;> exact ⟨floor, gap, ceiling⟩

/-- A value applied writes its unit alone. -/
theorem unitOf_setUnit {s : State} (rising : Ascending s.fleet.units) (i : Nat) (u : UnitRec) (k : Nat) :
    unitOf (setUnit i u s) k = if k = i then u else unitOf s k := by
  show tableGet UnitRec.reset (tableSet UnitRec.reset s.fleet.units i u) k = _
  rw [tableGet_tableSet rising]
  rfl

/-- The unit with its new value, before its contribution is judged again. -/
def withSetting (i : Nat) (x : Setting) (s : State) : State :=
  disturb (fun k => k == i) (setUnit i (settingApplied (onRunningChannel s i) x (unitOf s i)) s)

theorem applySetting_eq (i : Nat) (x : Setting) (s : State) : applySetting i x s =
    if contributing s i && !contributing (withSetting i x s) i then contributionLost i (withSetting i x s)
    else if !contributing s i && contributing (withSetting i x s) i then contributionGained (withSetting i x s)
    else withSetting i x s := rfl

theorem unitOf_withSetting {s : State} (rising : Ascending s.fleet.units) (i : Nat) (x : Setting) (k : Nat) :
    unitOf (withSetting i x s) k =
      if k = i then settingApplied (onRunningChannel s i) x (unitOf s i) else unitOf s k := by
  rw [withSetting, unitOf_congr (s := setUnit i _ s) (by rw [disturb_frame]), unitOf_setUnit rising]

theorem applySetting_fleet (i : Nat) (x : Setting) (s : State) :
    (applySetting i x s).fleet = (withSetting i x s).fleet := by
  rw [applySetting_eq]
  split_ifs
  · rw [contributionLost_frame]
  · rfl
  · rfl

theorem unitOf_applySetting {s : State} (rising : Ascending s.fleet.units) (i : Nat) (x : Setting) (k : Nat) :
    unitOf (applySetting i x s) k =
      if k = i then settingApplied (onRunningChannel s i) x (unitOf s i) else unitOf s k := by
  rw [unitOf_congr (applySetting_fleet i x s), unitOf_withSetting rising]

/-- With its new value a unit contributes as its state, its channel and its own exclusion say. -/
theorem contributing_withSetting {s : State} (rising : Ascending s.fleet.units) (i : Nat) (x : Setting) :
    contributing (withSetting i x s) i = (decide ((unitOf s i).state = .ready) && onRunningChannel s i &&
      !(settingApplied (onRunningChannel s i) x (unitOf s i)).excluded) := by
  have channel : onRunningChannel (withSetting i x s) i = onRunningChannel s i := by
    unfold onRunningChannel
    rw [channelOf_congr (s := s) (by rw [withSetting, disturb_frame]; rfl)]
  unfold contributing
  rw [channel, unitOf_withSetting rising, if_pos rfl, state_settingApplied]

theorem marked_withSetting (i : Nat) (x : Setting) (s : State) :
    Marked s (withSetting i x s) (fun _ _ => False) (fun k => k == i) := by
  have written : Marked s (setUnit i (settingApplied (onRunningChannel s i) x (unitOf s i)) s) (fun _ _ => False)
      (fun _ => false) := .still rfl rfl rfl
  exact (written.trans (marked_disturb (fun k => k == i) _)).congr (fun n e => by simp) (fun k => by simp)

/-- Settles O46: the unit takes the value by `settingApplied`, and only a change of its contribution marks. -/
theorem ownerLimitsAreCoupled : Obligations.OwnerLimitsAreCoupled := by
  intro i s tables u
  have rising : Ascending s.fleet.units := tables.1.1
  have own (x : Setting) : unitOf (applySetting i x s) i = settingApplied (onRunningChannel s i) x u := by
    rw [unitOf_applySetting rising, if_pos rfl]
  have other (x : Setting) (k : Nat) (hk : k ≠ i) : unitOf (applySetting i x s) k = unitOf s k := by
    rw [unitOf_applySetting rising, if_neg hk]
  have first (x : Setting) := marked_withSetting i x s
  refine ⟨fun x empty k => ?_, other, fun v listed => ?_, fun v listed => ?_, fun b listed => ?_, fun x h => ?_,
    fun contributes => ?_, fun idle ready running => ?_, fun x same => ?_⟩
  · by_cases hk : k = i
    · rw [hk, own, settingApplied_empty empty]
    · exact other x k hk
  · rw [own, settingApplied_listed listed]
    simp only [applyFloor]
    congr 1
    split_ifs <;> omega
  · rw [own, settingApplied_listed listed]
    simp only [applyCeiling]
    congr 1
    split_ifs <;> omega
  · rw [own, settingApplied_listed listed]
    dsimp only [applyExcluded]
    split_ifs with kept
    · rfl
    · have owed : (b && !(decide (u.state = .ready) && onRunningChannel s i)) = (b && !contributing s i) := by
        cases b with
        | false => rfl
        | true => simp [contributing, u, Bool.eq_false_of_not_eq_true (Ne.symm kept)]
      rw [owed]
  · rw [own]
    exact limitsHold_settingApplied _ x h
  · have lost : contributing (withSetting i (.excluded true) s) i = false := by
      rw [contributing_withSetting rising, settingApplied_listed (by simp [ready_of_contributing contributes])]
      dsimp only [applyExcluded]
      split_ifs with e
      · simp [← e]
      · simp
    rw [applySetting_eq, if_pos (by simp [contributes, lost])]
    have marks := (first (.excluded true)).trans (marked_contributionLost i _)
    rw [(first (.excluded true)).shares] at marks
    exact (marks.congr (q := fun n _ => ∃ r ∈ s.shares, r.entry = n ∧ r.unit = i) (fun n e => by simp)
      (fun k => rfl)).marked
  · have excluded : u.excluded = true := by
      simpa [contributing, u, ready, onRunningChannel, running] using idle
    have ready' : (unitOf s i).state = .ready := ready
    have gained : contributing (withSetting i (.excluded false) s) i = true := by
      rw [contributing_withSetting rising, settingApplied_listed (show (unitOf s i).state ≠ .empty by rw [ready']; simp)]
      simp [applyExcluded, ready', onRunningChannel, running, show (unitOf s i).excluded = true from excluded]
    rw [applySetting_eq, if_neg (by simp [idle]), if_pos (by simp [idle, gained])]
    exact (((first (.excluded false)).trans (marked_contributionGained _)).congr
      (q := fun _ e => e.uncovered ≠ 0) (fun n e => by simp) (fun k => rfl)).marked
  · have still : contributing (withSetting i x s) i = contributing s i := by
      rw [own] at same
      rw [contributing_withSetting rising, same]
      rfl
    have marks := (first x).marked
    rw [applySetting_eq, still, if_neg (by simp), if_neg (by simp), withSetting, disturb_replans]
    rfl

end Sys2Proof.Machine

/-! PROOF. The judging of a received master frame: BUSY, the code, the class, the length, the contents and the map, in
that order (R167, R168, R172). -/

namespace Sys2Proof.Machine

/-! ### Codes and classes (R167, R178) -/

theorem requestOf_requestCode (q : Request) : requestOf (requestCode q) = some q := by
  cases q <;> rfl

theorem requestOf_eq_some_iff (q : Request) (c : Byte) : requestOf c = some q ↔ requestCode q = c := by
  refine ⟨fun h => ?_, fun h => h ▸ requestOf_requestCode q⟩
  have found : (requestCode q == c) = true := List.find?_some (p := fun q => requestCode q == c) h
  exact eq_of_beq found

/-! ### What finds a request in process (R168) -/

/-- A request that is not a telegram on GL is received as every request is. -/
theorem receiveCommand_eq {q : Request} {l : Link} (h : ¬(q = .activate ∧ l = .gl)) (tag : Byte) (c : List Byte)
    (s : State) : receiveCommand q l tag c s = receiveRequest q (takeOf q) l tag c s := by
  unfold receiveCommand
  split_ifs with activate
  · subst activate
    cases l with
    | gl => exact absurd ⟨rfl, rfl⟩ h
    | tl => rfl
    | fa => rfl
    | fb => rfl
  · rfl

/-- A frame that carries a request's code is received as that request. -/
theorem receiveFrame_requestCode (q : Request) (l : Link) (tag : Byte) (c : List Byte) (s : State) :
    receiveFrame l (requestCode q) tag c s = receiveCommand q l tag c s := by
  unfold receiveFrame
  rw [requestOf_requestCode]
  dsimp only
  split_ifs with telegram
  · obtain ⟨rfl, rfl⟩ := telegram
    rfl
  · exact (receiveCommand_eq telegram tag c s).symm

/-- A frame that finds a request in process is answered BUSY, unless it is a telegram on GL. -/
theorem exec_busy_inProcess {l : Link} {code : Byte} {s : State} (held : s.resetHeld = false)
    (busy : (linkOf s l).inProcess.isSome = true) (h : ¬(code = 0x15#8 ∧ l = .gl)) (tag : Byte) (c : List Byte) :
    effect (receiveFrame l code tag c) s = .next (settle (oweBusy l tag (frameComplete l s))) := by
  cases known : requestOf code with
  | none =>
    have unknown : receiveFrame l code tag c = receiveUnknown l tag := by
      funext s
      rw [receiveFrame, known]
    rw [unknown]
    simp [effect, receiveUnknown, held, busy]
  | some q =>
    obtain rfl := (requestOf_eq_some_iff q code).1 known
    have request : ¬(q = .activate ∧ l = .gl) := fun ⟨hq, hl⟩ => h ⟨by rw [hq]; rfl, hl⟩
    have same : receiveFrame l (requestCode q) tag c = receiveRequest q (takeOf q) l tag c :=
      funext fun s => (receiveFrame_requestCode q l tag c s).trans (receiveCommand_eq request tag c s)
    rw [same]
    exact receiveRequest_busy held busy q _ tag c

/-! ### The checks of a request's frame, in their order (R172) -/

/-- A request whose frame a check refuses is answered at once with the code of that check. -/
theorem exec_commandOf_refused {q : Request} {l : Link} {c : List Byte} {s : State} {code : AnswerCode}
    (h : CanTake s l) (request : ¬(q = .activate ∧ l = .gl)) (refused : frameRefusal q l c s = some code)
    (tag : Byte) :
    exec (commandOf q l tag c) s = .next (settle (oweAnswer l tag code [] false (frameComplete l s))) := by
  have same : receiveCommand q l tag c = receiveRequest q (takeOf q) l tag c :=
    funext (receiveCommand_eq request tag c)
  rw [exec_commandOf, same]
  exact receiveRequest_refused h refused _ tag

theorem frameRefusal_class {q : Request} {l : Link} (h : allowed q (classOf l) = false) (c : List Byte) (s : State) :
    frameRefusal q l c s = some .denied :=
  if_pos h

theorem frameRefusal_length {q : Request} {l : Link} {c : List Byte} (ha : allowed q (classOf l) = true)
    (hc : c.length ≠ contentsLength q) (s : State) : frameRefusal q l c s = some .badRequest :=
  (if_neg (by simp [ha])).trans (if_pos hc)

theorem frameRefusal_contents {q : Request} {l : Link} {c : List Byte} {code : AnswerCode}
    (ha : allowed q (classOf l) = true) (hc : c.length = contentsLength q) (hx : contentsRefusal c q = some code)
    (s : State) : frameRefusal q l c s = some code := by
  simp [frameRefusal, ha, hc, hx]

theorem frameRefusal_map {q : Request} {l : Link} {c : List Byte} {s : State} {m : UnitMap}
    (ha : allowed q (classOf l) = true) (hc : c.length = contentsLength q) (hx : contentsRefusal c q = none)
    (hm : mapOf s l = some m) (hn : namesPermitted m c q = false) : frameRefusal q l c s = some .denied := by
  simp [frameRefusal, ha, hc, hx, hm, hn]

/-- The requests that name channels by a mask. -/
def NamesChannels (q : Request) : Prop := q = .start ∨ q = .stop ∨ q = .engage ∨ q = .disengage

theorem contentsRefusal_channels {q : Request} (h : NamesChannels q) (c : List Byte) :
    contentsRefusal c q = if named c = [] then some .badRequest else none := by
  rcases h with rfl | rfl | rfl | rfl <;> rfl

theorem namesPermitted_channels {q : Request} (h : NamesChannels q) (m : UnitMap) (c : List Byte) :
    namesPermitted m c q = (named c).all (mapCovers m) := by
  rcases h with rfl | rfl | rfl | rfl <;> rfl

theorem mem_named (c : List Byte) (k : Nat) : k ∈ named c ↔ k < 8 ∧ (readU c 0 1).testBit k = true := by
  simp [named, maskChannels]

theorem mapCovers_iff (m : UnitMap) (k : Nat) : mapCovers m k = true ↔ ∀ d < 512, permitted m (512 * k + d) = true := by
  simp [mapCovers, unitIndex, Config.spanUnits, Nat.mul_comm]

/-! ### What a block refuses it leaves as it is -/

/-- An answer other than DONE carries nothing and changes nothing. -/
def RefusesStill (s : State) (p : State × Reply) : Prop :=
  ∀ code result, p.2 = .answer code result → code ≠ .done → p.1 = s ∧ result = []

namespace RefusesStill

theorem refused (s : State) (code : AnswerCode) : RefusesStill s (s, refuse code) := by
  rintro _ _ ⟨⟩ _
  exact ⟨rfl, rfl⟩

theorem accepted (s t : State) (result : List Byte) : RefusesStill s (t, done result) := by
  rintro _ _ ⟨⟩ no
  exact absurd rfl no

theorem waiting (s t : State) : RefusesStill s (t, .waits) := by
  rintro _ _ ⟨⟩

theorem choice {s : State} {b : Prop} [Decidable b] {p q : State × Reply} (h : b → RefusesStill s p)
    (g : ¬b → RefusesStill s q) : RefusesStill s (if b then p else q) := by
  split_ifs with hb
  · exact h hb
  · exact g hb

end RefusesStill

open RefusesStill

theorem refusesStill_entry (l : Link) (c : List Byte) (s : State) :
    RefusesStill s (takeEntry l c s) := by
  refine choice (fun _ => refused _ _) fun _ => ?_
  cases entryOf s (readU c 0 2) with
  | none => exact refused _ _
  | some e => exact choice (fun _ => refused _ _) fun _ => accepted _ _ _

theorem refusesStill_quote (l : Link) (c : List Byte) (s : State) : RefusesStill s (takeQuote l c s) := by
  refine choice (fun _ => refused _ _) fun _ => ?_
  cases productOf (readU c 0 1) with
  | none => exact refused _ _
  | some p => exact choice (fun _ => refused _ _) fun _ => waiting _ _

theorem refusesStill_offer (l : Link) (c : List Byte) (s : State) : RefusesStill s (takeOffer l c s) := by
  refine choice (fun _ => refused _ _) fun _ => ?_
  cases productOf (readU c 4 1) with
  | none => exact refused _ _
  | some p =>
    dsimp only
    cases offerRefusal s (readU c 0 4) (readU c 5 4) (readU c 9 1) (readU c 10 2) with
    | some code => exact refused _ _
    | none => exact waiting _ _

theorem refusesStill_award (l : Link) (c : List Byte) (s : State) : RefusesStill s (takeAward l c s) := by
  refine choice (fun _ => refused _ _) fun _ => ?_
  cases findEntry s (readU c 0 2) (readU c 2 4) with
  | error code => exact refused _ _
  | ok e =>
    exact choice (fun _ => refused _ _) fun _ => choice (fun _ => refused _ _) fun _ =>
      choice (fun _ => accepted _ _ _) fun _ => accepted _ _ _

theorem refusesStill_withdraw (l : Link) (c : List Byte) (s : State) : RefusesStill s (takeWithdraw l c s) := by
  unfold takeWithdraw
  cases findEntry s (readU c 0 2) (readU c 2 4) with
  | error code => exact refused _ _
  | ok e =>
    exact choice (fun _ => accepted _ _ _) fun _ => choice (fun _ => refused _ _) fun _ => refused _ _

theorem refusesStill_discard (l : Link) (c : List Byte) (s : State) : RefusesStill s (takeDiscard l c s) := by
  unfold takeDiscard
  cases findEntry s (readU c 0 2) (readU c 2 4) with
  | error code => exact refused _ _
  | ok e =>
    exact choice (fun _ => refused _ _) fun _ => choice (fun _ => refused _ _) fun _ => accepted _ _ _

theorem refusesStill_release (l : Link) (c : List Byte) (s : State) : RefusesStill s (takeRelease l c s) := by
  unfold takeRelease
  cases findEntry s (readU c 0 2) (readU c 2 4) with
  | error code => exact refused _ _
  | ok e => exact choice (fun _ => accepted _ _ _) fun _ => refused _ _

theorem refusesStill_take (l : Link) (c : List Byte) (s : State) : RefusesStill s (takeTake l c s) := by
  unfold takeTake
  cases s.track.queue with
  | nil => exact refused _ _
  | cons r rest => exact accepted _ _ _

theorem refusesStill_map (l : Link) (c : List Byte) (s : State) : RefusesStill s (takeMap l c s) := by
  unfold takeMap
  cases selectorOf (readU c 0 1) with
  | none => exact refused _ _
  | some l =>
    exact choice (fun _ => accepted _ _ _) fun _ => choice (fun _ => refused _ _) fun _ =>
      choice (fun _ => refused _ _) fun _ => choice (fun _ => refused _ _) fun _ => accepted _ _ _

theorem refusesStill_product (l : Link) (c : List Byte) (s : State) : RefusesStill s (takeProduct l c s) := by
  unfold takeProduct
  cases productOf (readU c 0 1) with
  | none => exact refused _ _
  | some p =>
    exact choice (fun _ => accepted _ _ _) fun _ => choice (fun _ => refused _ _) fun _ =>
      choice (fun _ => refused _ _) fun _ => accepted _ _ _

theorem refusesStill_override (l : Link) (c : List Byte) (s : State) : RefusesStill s (takeOverride l c s) := by
  unfold takeOverride
  cases overrideOf (readU c 0 1) with
  | none => exact refused _ _
  | some o => exact choice (fun _ => refused _ _) fun _ => accepted _ _ _

theorem refusesStill_set (l : Link) (c : List Byte) (s : State) : RefusesStill s (takeSet l c s) := by
  unfold takeSet
  cases settingOf (readU c 2 1) (readU c 3 2) with
  | none => exact refused _ _
  | some x =>
    exact choice (fun _ => accepted _ _ _) fun _ => choice (fun _ => accepted _ _ _) fun _ =>
      choice (fun _ => refused _ _) fun _ => accepted _ _ _

theorem refusesStill_time (l : Link) (c : List Byte) (s : State) : RefusesStill s (takeTime l c s) :=
  choice (fun _ => accepted _ _ _) fun _ => choice (fun _ => refused _ _) fun _ =>
    choice (fun _ => choice (fun _ => refused _ _) fun _ => accepted _ _ _) fun _ =>
      choice (fun _ => refused _ _) fun _ => accepted _ _ _

theorem refusesStill_lineMode (l : Link) (c : List Byte) (s : State) : RefusesStill s (takeLineMode l c s) := by
  unfold takeLineMode
  split
  · exact accepted _ _ _
  · exact accepted _ _ _
  · exact accepted _ _ _
  · exact refused _ _

theorem refusesStill_takeOf (q : Request) (l : Link) (c : List Byte) (s : State) : RefusesStill s (takeOf q l c s) := by
  cases q with
  | quote => exact refusesStill_quote l c s
  | offer => exact refusesStill_offer l c s
  | award => exact refusesStill_award l c s
  | withdraw => exact refusesStill_withdraw l c s
  | discard => exact refusesStill_discard l c s
  | release => exact refusesStill_release l c s
  | entry => exact refusesStill_entry l c s
  | take => exact refusesStill_take l c s
  | map => exact refusesStill_map l c s
  | product => exact refusesStill_product l c s
  | override => exact refusesStill_override l c s
  | set => exact refusesStill_set l c s
  | time => exact refusesStill_time l c s
  | lineMode => exact refusesStill_lineMode l c s
  | list => exact choice (fun _ => refused _ _) fun _ => accepted _ _ _
  | gate =>
    exact choice (fun _ => accepted _ _ _) fun _ => choice (fun _ => refused _ _) fun _ =>
      choice (fun _ => refused _ _) fun _ => accepted _ _ _
  | settings | thresholds =>
    exact choice (fun _ => refused _ _) fun _ => choice (fun _ => refused _ _) fun _ => accepted _ _ _
  | feeder => exact choice (fun _ => refused _ _) fun _ => choice (fun _ => accepted _ _ _) fun _ => accepted _ _ _
  | deadband => exact choice (fun _ => accepted _ _ _) fun _ => choice (fun _ => refused _ _) fun _ => accepted _ _ _
  | activate | clear | engage | disengage => exact choice (fun _ => refused _ _) fun _ => accepted _ _ _
  | start => exact choice (fun _ => refused _ _) fun _ => choice (fun _ => refused _ _) fun _ => accepted _ _ _
  | margin | units | feeders | lockShort | dispatch | stop | channels => exact accepted _ _ _

/-- Settles O48: by the code of the frame, the checks of `frameRefusal` in their order, and `RefusesStill`. -/
theorem receivedFramesAreJudgedInOrder : Obligations.ReceivedFramesAreJudgedInOrder := by
  refine ⟨fun l code tag c s held busy h => exec_busy_inProcess held busy h tag c, fun q l tag c s => ?_,
    ⟨requestOf_eq_some_iff, ?_, ?_⟩, ⟨rfl, rfl, rfl, rfl⟩, fun l tag s => ⟨?_, ?_, fun k hk => ?_⟩,
    fun l code tag c s h unknown => ?_, ?_, ?_⟩
  · have same : receiveFrame l (requestCode q) tag c = receiveCommand q l tag c :=
      funext (receiveFrame_requestCode q l tag c)
    rw [exec_commandOf, ← same]
    exact ⟨rfl, rfl⟩
  · intro q
    cases q <;> decide
  · have classes (k : LinkClass) : k ∈ [LinkClass.market, .operator, .fleet] := by cases k <;> decide
    have table : ∀ p ∈ requestTable, requestCode p.1 = p.2.1 ∧ contentsLength p.1 = p.2.2.1 ∧
        ∀ k ∈ [LinkClass.market, .operator, .fleet], allowed p.1 k = true ↔ k ∈ p.2.2.2 := by decide
    exact fun p hp => ⟨(table p hp).1, (table p hp).2.1, fun k => (table p hp).2.2 k (classes k)⟩
  · exact linkOf_setLink_self ..
  · cases l <;> rfl
  · exact linkOf_setLink_ne hk ..
  · have same : receiveFrame l code tag c = receiveUnknown l tag := by
      funext s
      rw [receiveFrame, unknown]
    show effect (receiveFrame l code tag c) s = _
    rw [same]
    simp [effect, receiveUnknown, h.1, h.2]
  · intro q l tag c s h request u channels refused
    have answer {code : AnswerCode} (no : frameRefusal q l c s = some code) : refused code :=
      exec_commandOf_refused h request no tag
    refine ⟨fun no => answer (frameRefusal_class no c s), fun ha hc => answer (frameRefusal_length ha hc s),
      fun ha hc names none => answer (frameRefusal_contents ha hc ?_ s),
      fun ha hc units out => answer (frameRefusal_contents ha hc ?_ s),
      fun m hm ha hc => ⟨fun names => ?_, fun units low high fits => ?_⟩⟩
    · rw [contentsRefusal_channels names, if_pos]
      refine List.eq_nil_iff_forall_not_mem.2 fun k hk => ?_
      obtain ⟨below, bit⟩ := (mem_named c k).1 hk
      rw [none k below] at bit
      cases bit
    · subst units
      exact if_pos out
    · rintro ⟨k, below, bit, d, hd, no⟩
      have some : k ∈ named c := (mem_named c k).2 ⟨below, bit⟩
      refine answer (frameRefusal_map ha hc ?_ hm ?_)
      · rw [contentsRefusal_channels names, if_neg (List.ne_nil_of_mem some)]
      · rw [namesPermitted_channels names, Bool.eq_false_iff]
        intro all
        have covers := (mapCovers_iff m k).1 (List.all_eq_true.1 all k some) d hd
        rw [no] at covers
        cases covers
    · subst units
      rintro ⟨k, below, no⟩
      refine answer (frameRefusal_map ha hc (if_neg (by omega)) hm ?_)
      rw [Bool.eq_false_iff]
      intro all
      have allowed := List.all_eq_true.1 all k (List.mem_range.2 below)
      rw [no] at allowed
      cases allowed
  · intro q l c s t code result taken refused
    have still := refusesStill_takeOf q l c s code result (by rw [taken]) refused
    rw [taken] at still
    exact still

end Sys2Proof.Machine

/-! PROOF. What a channel's leaving of the round changes, and STOP, which takes its channels out of the round one after
another (R40, R51, R54). -/

namespace Sys2Proof.Machine

/-! ### The CHANNEL notices -/

/-- The maps and the pending CHANNEL notices are the same. -/
def ChannelStill (s t : State) : Prop :=
  t.links.mapA = s.links.mapA ∧ t.links.mapB = s.links.mapB ∧
    ∀ l, (linkOf t l).notices.channel = (linkOf s l).notices.channel

theorem ChannelStill.refl (s : State) : ChannelStill s s := ⟨rfl, rfl, fun _ => rfl⟩

theorem ChannelStill.of_links {s t : State} (h : t.links = s.links) : ChannelStill s t := by
  unfold ChannelStill linkOf
  rw [h]
  exact ⟨rfl, rfl, fun _ => rfl⟩

theorem ChannelStill.trans {s t u : State} (h : ChannelStill s t) (g : ChannelStill t u) : ChannelStill s u := by
  obtain ⟨mapA, mapB, flags⟩ := h
  obtain ⟨mapA', mapB', flags'⟩ := g
  exact ⟨mapA'.trans mapA, mapB'.trans mapB, fun l => (flags' l).trans (flags l)⟩

theorem channelStill_raiseOn {k : NoticeKind} (h : k ≠ .channel) (l : Link) (s : State) :
    ChannelStill s (raiseOn l k s) := by
  have notices := noticesOnly_raiseOn l k s
  refine ⟨notices.1, notices.2.1, fun j => ?_⟩
  rw [linkOf_raiseOn]
  split_ifs with same
  · subst same
    cases k <;> first | rfl | exact absurd rfl h
  · rfl

/-- A CHANNEL event after steps that leave the CHANNEL notices as they were. -/
theorem ChannelStill.raised {s t u : State} {k : Nat} (h : ChannelStill s t) (g : ChannelRaised t u k) :
    ChannelRaised s u k := by
  obtain ⟨mapA, mapB, flags⟩ := h
  obtain ⟨tl, gl, fa, fb⟩ := g
  rw [mapA, show t.links.fa.notices.channel = _ from flags .fa] at fa
  rw [mapB, show t.links.fb.notices.channel = _ from flags .fb] at fb
  exact ⟨tl, gl.trans (flags .gl), fa, fb⟩

/-- A CHANNEL event before steps that leave the CHANNEL notices as they were. -/
theorem ChannelRaised.still {s t u : State} {k : Nat} (h : ChannelRaised s t k) (g : ChannelStill t u) :
    ChannelRaised s u k := by
  obtain ⟨mapA, mapB, flags⟩ := g
  obtain ⟨tl, gl, fa, fb⟩ := h
  exact ⟨(flags .tl).trans tl, (flags .gl).trans gl, (flags .fa) ▸ fa, (flags .fb) ▸ fb⟩

/-- Two CHANNEL events of one channel. -/
theorem ChannelRaised.again {s t u : State} {k : Nat} (h : ChannelRaised s t k)
    (maps : t.links.mapA = s.links.mapA ∧ t.links.mapB = s.links.mapB) (g : ChannelRaised t u k) :
    ChannelRaised s u k := by
  obtain ⟨mapA, mapB⟩ := maps
  obtain ⟨_, gl, fa, fb⟩ := h
  obtain ⟨tl', gl', fa', fb'⟩ := g
  rw [fa, mapA] at fa'
  rw [fb, mapB] at fb'
  exact ⟨tl', gl'.trans gl, fa'.trans (by rw [or_assoc, or_self]), fb'.trans (by rw [or_assoc, or_self])⟩

theorem channelRaised_raise (c : Nat) (s : State) : ChannelRaised s (raiseChannel c s) c :=
  (channelRaised_raiseChannel c s).1

/-! ### A round's end beside the units, the book and the Evaluator (R51) -/

/-- Beside the round, its failed channels, the accounts, the margin and the notices nothing differs, and no CHANNEL is
raised. -/
structure RoundSide (s t : State) : Prop where
  frame : ∃ round mask track margin links, t = { s with
    ctl := { s.ctl with round := round, failedMask := mask }, track := track, margin := margin, links := links }
  notices : NoticesOnly s t
  channel : ChannelStill s t
  reported : t.track.reported = s.track.reported

namespace RoundSide

theorem refl (s : State) : RoundSide s s := ⟨⟨_, _, _, _, _, rfl⟩, .refl s, .refl s, rfl⟩

theorem trans {s t u : State} (h : RoundSide s t) (g : RoundSide t u) : RoundSide s u := by
  refine ⟨?_, h.notices.trans g.notices, h.channel.trans g.channel, g.reported.trans h.reported⟩
  obtain ⟨_, _, _, _, _, rfl⟩ := h.frame
  obtain ⟨_, _, _, _, _, rfl⟩ := g.frame
  exact ⟨_, _, _, _, _, rfl⟩

theorem ite {p : Prop} [Decidable p] {s t u : State} (h : p → RoundSide s t) (g : ¬p → RoundSide s u) :
    RoundSide s (if p then t else u) := by
  split_ifs with hp
  · exact h hp
  · exact g hp

theorem setCtl (round : Option Round) (mask : List Nat) (s : State) :
    RoundSide s { s with ctl := { s.ctl with round := round, failedMask := mask } } :=
  ⟨⟨_, _, _, _, _, rfl⟩, .refl s, .refl s, rfl⟩

theorem setTrack {track : Tracker} {s : State} (reported : track.reported = s.track.reported) :
    RoundSide s { s with track := track } :=
  ⟨⟨_, _, _, _, _, rfl⟩, .refl s, .refl s, reported⟩

theorem setMargin (margin : MarginMonitor) (s : State) : RoundSide s { s with margin := margin } :=
  ⟨⟨_, _, _, _, _, rfl⟩, .refl s, .refl s, rfl⟩

theorem raiseOn {k : NoticeKind} (h : k ≠ .channel) (l : Link) (s : State) : RoundSide s (raiseOn l k s) :=
  ⟨⟨_, _, _, _, _, raiseOn_eq_setLinks l k s⟩, noticesOnly_raiseOn l k s, channelStill_raiseOn h l s,
    by rw [raiseOn_eq_setLinks]⟩

theorem foldl {α : Type} {f : State → α → State} (h : ∀ s a, RoundSide s (f s a)) (l : List α) (s : State) :
    RoundSide s (l.foldl f s) := by
  induction l generalizing s with
  | nil => exact .refl s
  | cons a l ih => exact (h s a).trans (ih (f s a))

theorem fleet {s t : State} (h : RoundSide s t) : t.fleet = s.fleet := by
  obtain ⟨_, _, _, _, _, rfl⟩ := h.frame; rfl
theorem eval {s t : State} (h : RoundSide s t) : t.eval = s.eval := by
  obtain ⟨_, _, _, _, _, rfl⟩ := h.frame; rfl
theorem book {s t : State} (h : RoundSide s t) : t.book = s.book := by
  obtain ⟨_, _, _, _, _, rfl⟩ := h.frame; rfl
theorem shares {s t : State} (h : RoundSide s t) : t.shares = s.shares := by
  obtain ⟨_, _, _, _, _, rfl⟩ := h.frame; rfl
theorem disp {s t : State} (h : RoundSide s t) : t.disp = s.disp := by
  obtain ⟨_, _, _, _, _, rfl⟩ := h.frame; rfl
theorem channels {s t : State} (h : RoundSide s t) : t.ctl.channels = s.ctl.channels := by
  obtain ⟨_, _, _, _, _, rfl⟩ := h.frame; rfl

theorem marked {s t : State} (h : RoundSide s t) : Marked s t (fun _ _ => False) (fun _ => false) :=
  .still (congrArg Book.entries h.book) h.shares h.eval

theorem channelOf {s t : State} (h : RoundSide s t) (k : Nat) : channelOf t k = Machine.channelOf s k :=
  channelOf_congr h.channels k

end RoundSide

theorem roundSide_appendRecord (r : DeliveryRecord) (s : State) : RoundSide s (appendRecord r s) := by
  have queued (q : List DeliveryRecord) : RoundSide s { s with track := { s.track with queue := q } } := .setTrack rfl
  exact .ite (fun _ => (queued _).trans (.raiseOn (k := .records) (by simp) .tl _)) fun _ => queued _

theorem roundSide_emitRecord (n : Nat) (a : Accumulator) (released : Bool) (s : State) :
    RoundSide s (emitRecord n a released s) := by
  unfold emitRecord
  cases entryOf s n with
  | none => exact .refl s
  | some e => exact roundSide_appendRecord ..

theorem roundSide_creditRound (s : State) : RoundSide s (creditRound s) := by
  unfold creditRound
  cases s.track.roll with
  | none => exact .refl s
  | some roll =>
    cases s.disp.figures with
    | none => exact .refl s
    | some f => exact .setTrack (accountsKept_credits s roll f s.track).1.2.2

theorem roundSide_emitHeld (s : State) : RoundSide s (emitHeld s) := by
  dsimp only [emitHeld]
  exact (RoundSide.setTrack (track := { s.track with held := [] }) rfl).trans
    (.foldl (fun s (p : Nat × Accumulator) => roundSide_emitRecord p.1 p.2 false s) _ _)

theorem roundSide_trackCompletion (s : State) : RoundSide s (trackCompletion s) := by
  rw [trackCompletion_eq]
  exact (roundSide_creditRound s).trans
    ((RoundSide.setTrack (track := { (creditRound s).track with roll := none }) rfl).trans (roundSide_emitHeld _))

theorem roundSide_marginCompletion (s : State) : RoundSide s (marginCompletion s) := by
  dsimp only [marginCompletion]
  refine .ite (fun _ => .setMargin _ s) fun _ => (RoundSide.setMargin (computeMargin s) s).trans ?_
  exact (RoundSide.raiseOn (by simp) .tl _).trans (.raiseOn (by simp) .gl _)

theorem roundSide_completeRound (s : State) : RoundSide s (completeRound s) := by
  unfold completeRound
  cases s.ctl.round with
  | none => exact .refl s
  | some r =>
    exact (RoundSide.setCtl none r.failed s).trans
      ((roundSide_trackCompletion _).trans (roundSide_marginCompletion _))

theorem roundSide_leaveOutstanding (c : Nat) (s : State) : RoundSide s (leaveOutstanding c s) := by
  cases h : s.ctl.round with
  | none => rw [leaveOutstanding_none h]; exact .refl s
  | some r =>
    rw [leaveOutstanding_some h, completeIfDone_some rfl]
    exact (RoundSide.setCtl _ s.ctl.failedMask s).trans (.ite (fun _ => roundSide_completeRound _) fun _ => .refl _)

theorem roundSide_failOutstanding (c : Nat) (s : State) : RoundSide s (failOutstanding c s) := by
  rcases failOutstanding_cases c s with ⟨_, e⟩ | ⟨r, _, e⟩ <;> rw [e]
  · exact .refl s
  · exact (RoundSide.setCtl _ s.ctl.failedMask s).trans (roundSide_leaveOutstanding c _)

theorem roundSide_leaveRound (c : Nat) (s : State) : RoundSide s (leaveRound c s) := by
  rcases leaveRound_cases c s with ⟨_, e⟩ | ⟨r, _, e⟩ <;> rw [e]
  · exact .refl s
  · exact (RoundSide.setCtl _ s.ctl.failedMask s).trans (roundSide_leaveOutstanding c _)

/-! ### The round a channel leaves (R51) -/

/-- The last outstanding channel ends the round and stores its failed channels. -/
theorem leaveOutstanding_last {s : State} {r : Round} (h : s.ctl.round = some r) {c : Nat}
    (last : ∀ j ∈ r.outstanding, j = c) :
    (leaveOutstanding c s).ctl = { s.ctl with round := none, failedMask := r.failed } := by
  have none : (r.outstanding.filter fun k => k ≠ c) = [] := by simpa using last
  rw [leaveOutstanding_some h, completeIfDone_some rfl, if_pos none, (completeRound_round rfl).1]

/-- A channel leaves the outstanding ones while others are left. -/
theorem leaveOutstanding_others {s : State} {r : Round} (h : s.ctl.round = some r) {c : Nat}
    (others : ∃ j ∈ r.outstanding, j ≠ c) :
    leaveOutstanding c s = { s with ctl := { s.ctl with
      round := some { r with outstanding := r.outstanding.filter fun k => k ≠ c } } } := by
  obtain ⟨j, hj, ne⟩ := others
  have some : (r.outstanding.filter fun k => k ≠ c) ≠ [] :=
    List.ne_nil_of_mem (List.mem_filter.2 ⟨hj, by simpa using ne⟩)
  rw [leaveOutstanding_some h, completeIfDone_some rfl, if_neg some]

theorem leaveRound_last {s : State} {r : Round} (h : s.ctl.round = some r) {c : Nat}
    (last : ∀ j ∈ r.outstanding, j = c) :
    (leaveRound c s).ctl = { s.ctl with round := none, failedMask := r.failed.filter fun k => k ≠ c } := by
  rcases leaveRound_cases c s with ⟨none, _⟩ | ⟨q, round, e⟩
  · rw [none] at h; cases h
  · obtain rfl := Option.some.inj (h.symm.trans round)
    rw [e]
    exact leaveOutstanding_last (r := { r with
      participating := r.participating.filter fun k => k ≠ c, failed := r.failed.filter fun k => k ≠ c }) rfl last

theorem leaveRound_others {s : State} {r : Round} (h : s.ctl.round = some r) {c : Nat}
    (others : ∃ j ∈ r.outstanding, j ≠ c) :
    (leaveRound c s).ctl = { s.ctl with
      round := some { participating := r.participating.filter fun k => k ≠ c,
                      outstanding := r.outstanding.filter fun k => k ≠ c,
                      failed := r.failed.filter fun k => k ≠ c } } := by
  rcases leaveRound_cases c s with ⟨none, _⟩ | ⟨q, round, e⟩
  · rw [none] at h; cases h
  · obtain rfl := Option.some.inj (h.symm.trans round)
    rw [e, leaveOutstanding_others (r := { r with
      participating := r.participating.filter fun k => k ≠ c, failed := r.failed.filter fun k => k ≠ c }) rfl others]

theorem leaveRound_none {s : State} (h : s.ctl.round = none) (c : Nat) : leaveRound c s = s := by
  rcases leaveRound_cases c s with ⟨_, e⟩ | ⟨r, round, _⟩
  · exact e
  · rw [h] at round; cases round

end Sys2Proof.Machine

/-! PROOF. STOP: what one channel's end changes, and a round that ends with the last of the stopped channels (R16, R40,
R51, R54, R119). -/

namespace Sys2Proof.Machine

/-! ### One channel emptied (R40) -/

/-- Discovery is abandoned, and a frame on the line goes on for nobody (log 16). -/
def abandoned (k : Nat) (s : State) : State :=
  setChannel k { channelOf s k with discovery := none, line := abandonLine (channelOf s k).line } s

/-- The frames that wait are dropped for a HALT. -/
def toldToHalt (k : Nat) (s : State) : State :=
  setChannel k { channelOf s k with armPending := false, exchangePending := false, haltPending := true } s

/-- The channel's units become EMPTY after their loss. -/
def spanEmptied (k : Nat) (s : State) : State :=
  emptySpan k (disturb (fun i => channelOfUnit i == k) (markOnUnits (fun i => channelOfUnit i == k) s))

def setStopped (k : Nat) (s : State) : State :=
  setChannel k { channelOf s k with
    sticky := FaultSet.none, failures := 0, roster := [], fault := false, state := .stopped } s

/-- A channel that has left the round is told to HALT, emptied and stopped. -/
def emptyChannel (k : Nat) (s : State) : State :=
  raiseChannel k (setStopped k (spanEmptied k (toldToHalt k s)))

theorem stopChannel_stopped {s : State} {k : Nat} (h : (channelOf s k).state = .stopped) : stopChannel s k = s :=
  if_pos h

theorem stopChannel_running {s : State} {k : Nat} (h : (channelOf s k).state ≠ .stopped) :
    stopChannel s k = emptyChannel k (leaveRound k (abandoned k s)) :=
  if_neg h

theorem spanEmptied_frame (k : Nat) (s : State) :
    spanEmptied k s = { emptySpan k s with eval := (spanEmptied k s).eval } := by
  unfold spanEmptied
  rw [spanLost_frame]
  rfl

theorem spanEmptied_ctl (k : Nat) (s : State) : (spanEmptied k s).ctl = s.ctl := by rw [spanEmptied_frame]; rfl

theorem marked_spanEmptied (k : Nat) (s : State) : Marked s (spanEmptied k s)
    (fun n _ => ∃ r ∈ s.shares, r.entry = n ∧ channelOfUnit r.unit = k) (fun i => channelOfUnit i == k) :=
  (((marked_markOnUnits (fun i => channelOfUnit i == k) s).trans (marked_disturb (fun i => channelOfUnit i == k) _)).trans
    (Marked.still (t := spanEmptied k s) rfl rfl rfl)).congr (fun n e => by simp) (fun i => by simp)

theorem emptyChannel_frame (k : Nat) (s : State) : ∃ channels eval links, emptyChannel k s =
    { emptySpan k s with ctl := { s.ctl with channels := channels }, eval := eval, links := links } := by
  unfold emptyChannel
  rw [raiseChannel_frame, spanEmptied_frame]
  exact ⟨_, _, _, rfl⟩

theorem emptyChannel_raised (k : Nat) (s : State) : ChannelRaised s (emptyChannel k s) k := by
  refine ChannelStill.raised (.of_links ?_) (channelRaised_raise k _)
  unfold setStopped
  rw [spanEmptied_frame]
  rfl

theorem emptyChannel_marked (k : Nat) (s : State) : Marked s (emptyChannel k s)
    (fun n _ => ∃ r ∈ s.shares, r.entry = n ∧ channelOfUnit r.unit = k) (fun i => channelOfUnit i == k) :=
  (((marked_setChannel k _ s).trans (marked_spanEmptied k (toldToHalt k s))).trans
    ((marked_setChannel k _ _).trans (marked_raiseChannel k (setStopped k (spanEmptied k (toldToHalt k s)))))).congr
    (fun n e => by simp [toldToHalt]) (fun i => by simp)

theorem channelOf_emptyChannel {s : State} (rising : Ascending s.ctl.channels) (k j : Nat) :
    channelOf (emptyChannel k s) j = if j = k then { channelOf s k with
      armPending := false, exchangePending := false, haltPending := true, sticky := FaultSet.none, failures := 0
      roster := [], fault := false, state := .stopped } else channelOf s j := by
  have told (j : Nat) : channelOf (spanEmptied k (toldToHalt k s)) j = if j = k then { channelOf s k with
      armPending := false, exchangePending := false, haltPending := true } else channelOf s j := by
    rw [channelOf_congr (congrArg Controller.channels (spanEmptied_ctl k (toldToHalt k s))), toldToHalt,
      channelOf_setChannel rising]
  have rising' : Ascending (spanEmptied k (toldToHalt k s)).ctl.channels := by
    rw [spanEmptied_ctl]
    exact ascending_tableSet rising ..
  rw [emptyChannel, channelOf_raiseChannel, setStopped, channelOf_setChannel rising', told, told, if_pos rfl]
  split_ifs <;> rfl

theorem ascending_emptyChannel {s : State} (rising : Ascending s.ctl.channels) (k : Nat) :
    Ascending (emptyChannel k s).ctl.channels := by
  rw [emptyChannel, raiseChannel_frame]
  refine ascending_tableSet ?_ ..
  rw [spanEmptied_ctl]
  exact ascending_tableSet rising ..

/-! ### One channel stopped -/

theorem ascending_leaveRound_abandoned {s : State} (rising : Ascending s.ctl.channels) (k : Nat) :
    Ascending (leaveRound k (abandoned k s)).ctl.channels := by
  rw [channels_leaveRound]
  exact ascending_tableSet rising ..

theorem channelOf_stopChannel {s : State} (rising : Ascending s.ctl.channels) {k : Nat}
    (h : (channelOf s k).state ≠ .stopped) (j : Nat) : channelOf (stopChannel s k) j = if j = k then
      { state := .stopped, sticky := FaultSet.none, failures := 0, roster := [], discovery := none
        line := abandonLine (channelOf s k).line, haltPending := true, armPending := false, exchangePending := false
        fault := false } else channelOf s j := by
  rw [stopChannel_running h, channelOf_emptyChannel (ascending_leaveRound_abandoned rising k),
    (roundSide_leaveRound ..).channelOf, (roundSide_leaveRound ..).channelOf, abandoned, channelOf_setChannel rising,
    channelOf_setChannel rising, if_pos rfl]
  split_ifs <;> rfl

theorem ascending_stopChannel {s : State} (rising : Ascending s.ctl.channels) (k : Nat) :
    Ascending (stopChannel s k).ctl.channels := by
  by_cases h : (channelOf s k).state = .stopped
  · rwa [stopChannel_stopped h]
  · rw [stopChannel_running h]
    exact ascending_emptyChannel (ascending_leaveRound_abandoned rising k) k

/-- The round and the failed channels after a STOP are those that leaving the round gives. -/
theorem stopChannel_round {s : State} {k : Nat} (h : (channelOf s k).state ≠ .stopped) :
    (stopChannel s k).ctl.round = (leaveRound k (abandoned k s)).ctl.round ∧
      (stopChannel s k).ctl.failedMask = (leaveRound k (abandoned k s)).ctl.failedMask := by
  obtain ⟨_, _, _, e⟩ := emptyChannel_frame k (leaveRound k (abandoned k s))
  rw [stopChannel_running h, e]
  exact ⟨rfl, rfl⟩

theorem stopChannel_last {s : State} {k : Nat} {r : Round} (h : (channelOf s k).state ≠ .stopped)
    (round : s.ctl.round = some r) (last : ∀ j ∈ r.outstanding, j = k) :
    (stopChannel s k).ctl.round = none ∧ (stopChannel s k).ctl.failedMask = r.failed.filter fun j => j ≠ k := by
  obtain ⟨left, mask⟩ := stopChannel_round h
  rw [left, mask, leaveRound_last (s := abandoned k s) round last]
  exact ⟨rfl, rfl⟩

theorem stopChannel_others {s : State} {k : Nat} {r : Round} (h : (channelOf s k).state ≠ .stopped)
    (round : s.ctl.round = some r) (others : ∃ j ∈ r.outstanding, j ≠ k) :
    (stopChannel s k).ctl.round = some { participating := r.participating.filter fun j => j ≠ k,
                                         outstanding := r.outstanding.filter fun j => j ≠ k,
                                         failed := r.failed.filter fun j => j ≠ k } := by
  rw [(stopChannel_round h).1, leaveRound_others (s := abandoned k s) round others]

theorem stopChannel_idle {s : State} (h : s.ctl.round = none) (k : Nat) :
    (stopChannel s k).ctl.round = none ∧ (stopChannel s k).ctl.failedMask = s.ctl.failedMask := by
  by_cases stopped : (channelOf s k).state = .stopped
  · rw [stopChannel_stopped stopped]
    exact ⟨h, rfl⟩
  · obtain ⟨left, mask⟩ := stopChannel_round stopped
    rw [left, mask, leaveRound_none (s := abandoned k s) h]
    exact ⟨h, rfl⟩

/-! ### The order of the named channels (log 33), and a round stopped whole -/

theorem outstandingNow_iff (s : State) (k : Nat) :
    outstandingNow s k = true ↔ ∃ r, s.ctl.round = some r ∧ k ∈ r.outstanding := by
  unfold outstandingNow
  cases s.ctl.round <;> simp

theorem stopOrder_perm (s : State) (cs : List Nat) : (stopOrder s cs).Perm cs := by
  have apart := List.filter_append_perm (fun k => !outstandingNow s k) cs
  simpa [stopOrder] using apart

theorem stopOrder_sorted (s : State) {cs : List Nat} (rising : cs.Pairwise (· < ·)) :
    (stopOrder s cs).Pairwise fun a b => (outstandingNow s a = true → outstandingNow s b = true) ∧
      ((outstandingNow s a = true ↔ outstandingNow s b = true) → a < b) := by
  refine List.pairwise_append.2 ⟨?_, ?_, fun a ha b hb => ?_⟩
  · refine (List.pairwise_filter.2 (rising.imp fun lt ha hb => ⟨?_, fun _ => lt⟩))
    intro out
    simp [out] at ha
  · exact List.pairwise_filter.2 (rising.imp fun lt ha hb => ⟨fun _ => hb, fun _ => lt⟩)
  · have before := (List.mem_filter.1 ha).2
    have after := (List.mem_filter.1 hb).2
    simp only [Bool.not_eq_true'] at before
    simp [before, after]

/-- Between rounds a STOP leaves the round and the failed channels as they are. -/
theorem foldl_stopChannel_idle (cs : List Nat) {s : State} (h : s.ctl.round = none) :
    (cs.foldl stopChannel s).ctl.round = none ∧ (cs.foldl stopChannel s).ctl.failedMask = s.ctl.failedMask := by
  induction cs generalizing s with
  | nil => exact ⟨h, rfl⟩
  | cons k cs ih =>
    obtain ⟨idle, mask⟩ := stopChannel_idle h k
    obtain ⟨idle', mask'⟩ := ih idle
    exact ⟨idle', mask'.trans mask⟩

/-- Channels the round does not wait for leave it, and with them every failed channel it does not wait for. -/
theorem foldl_stopChannel_settled {cs : List Nat} {s : State} {r : Round} (rising : Ascending s.ctl.channels)
    (round : s.ctl.round = some r) (waits : r.outstanding ≠ []) (settled : ∀ k ∈ cs, k ∉ r.outstanding)
    (failed : ∀ j ∈ r.failed, j ∉ r.outstanding → j ∈ cs ∧ (channelOf s j).state ≠ .stopped) :
    ∃ q, (cs.foldl stopChannel s).ctl.round = some q ∧ q.outstanding = r.outstanding ∧
      (∀ j ∈ q.failed, j ∈ r.outstanding) ∧ Ascending (cs.foldl stopChannel s).ctl.channels ∧
      ∀ j ∈ r.outstanding, channelOf (cs.foldl stopChannel s) j = channelOf s j := by
  induction cs generalizing s r with
  | nil =>
    refine ⟨r, round, rfl, fun j hj => ?_, rising, fun j _ => rfl⟩
    by_contra out
    exact absurd (failed j hj out).1 (List.not_mem_nil)
  | cons k cs ih =>
    have later : ∀ j ∈ cs, j ∉ r.outstanding := fun j hj => settled j (List.mem_cons_of_mem _ hj)
    have out : k ∉ r.outstanding := settled k List.mem_cons_self
    by_cases stopped : (channelOf s k).state = .stopped
    · rw [List.foldl_cons, stopChannel_stopped stopped]
      refine ih rising round waits later fun j hj hout => ?_
      obtain ⟨listed, runs⟩ := failed j hj hout
      exact ⟨(List.mem_cons.1 listed).resolve_left fun e => runs (e ▸ stopped), runs⟩
    · obtain ⟨j, hj⟩ := List.exists_mem_of_ne_nil _ waits
      have left := stopChannel_others stopped round ⟨j, hj, fun e => out (e ▸ hj)⟩
      have others (j : Nat) (ne : j ≠ k) : channelOf (stopChannel s k) j = channelOf s j := by
        rw [channelOf_stopChannel rising stopped, if_neg ne]
      have kept : (r.outstanding.filter fun j => j ≠ k) = r.outstanding :=
        List.filter_eq_self.2 fun j hj => by simpa using fun e : j = k => out (e ▸ hj)
      rw [kept] at left
      obtain ⟨q, round', out', failed', rising', same⟩ := ih (r := { r with
          participating := r.participating.filter fun j => j ≠ k, failed := r.failed.filter fun j => j ≠ k })
        (ascending_stopChannel rising k) left waits later fun j hj hout => by
          obtain ⟨member, ne⟩ := List.mem_filter.1 hj
          have ne : j ≠ k := by simpa using ne
          obtain ⟨listed, runs⟩ := failed j member hout
          exact ⟨(List.mem_cons.1 listed).resolve_left ne, by rw [others j ne]; exact runs⟩
      refine ⟨q, round', out', failed', rising', fun j hj => (same j hj).trans (others j fun e => out (e ▸ hj))⟩

/-- The last of the channels the round waits for ends it, and no failed channel is left. -/
theorem foldl_stopChannel_waiting {cs : List Nat} {s : State} {r : Round} (rising : Ascending s.ctl.channels)
    (round : s.ctl.round = some r) (waits : r.outstanding ≠ [])
    (named : ∀ j ∈ r.outstanding, j ∈ cs ∧ (channelOf s j).state ≠ .stopped)
    (failed : ∀ j ∈ r.failed, j ∈ r.outstanding) :
    (cs.foldl stopChannel s).ctl.round = none ∧ (cs.foldl stopChannel s).ctl.failedMask = [] := by
  induction cs generalizing s r with
  | nil =>
    obtain ⟨j, hj⟩ := List.exists_mem_of_ne_nil _ waits
    exact absurd (named j hj).1 List.not_mem_nil
  | cons k cs ih =>
    rw [List.foldl_cons]
    by_cases stopped : (channelOf s k).state = .stopped
    · rw [stopChannel_stopped stopped]
      refine ih rising round waits (fun j hj => ?_) failed
      obtain ⟨listed, runs⟩ := named j hj
      exact ⟨(List.mem_cons.1 listed).resolve_left fun e => runs (e ▸ stopped), runs⟩
    · by_cases last : ∀ j ∈ r.outstanding, j = k
      · obtain ⟨idle, mask⟩ := stopChannel_last stopped round last
        obtain ⟨idle', mask'⟩ := foldl_stopChannel_idle cs idle
        refine ⟨idle', mask'.trans (mask.trans (List.filter_eq_nil_iff.2 fun j hj => ?_))⟩
        simpa using last j (failed j hj)
      · push Not at last
        have left := stopChannel_others stopped round last
        obtain ⟨j, hj, ne⟩ := last
        refine ih (ascending_stopChannel rising k) left
          (List.ne_nil_of_mem (List.mem_filter.2 ⟨hj, by simpa using ne⟩)) (fun j hj => ?_) fun j hj => ?_
        · obtain ⟨member, ne⟩ := List.mem_filter.1 hj
          have ne : j ≠ k := by simpa using ne
          obtain ⟨listed, runs⟩ := named j member
          refine ⟨(List.mem_cons.1 listed).resolve_left ne, ?_⟩
          rwa [channelOf_stopChannel rising stopped, if_neg ne]
        · obtain ⟨member, ne⟩ := List.mem_filter.1 hj
          exact List.mem_filter.2 ⟨failed j member, ne⟩

/-- A STOP of every channel of a round ends it without a failed channel. -/
theorem foldl_stopOrder_round {cs : List Nat} {s : State} {r : Round} (rising : Ascending s.ctl.channels)
    (round : s.ctl.round = some r) (waits : r.outstanding ≠ [])
    (named : ∀ k ∈ r.participating ++ r.outstanding ++ r.failed, k ∈ cs ∧ (channelOf s k).state ≠ .stopped) :
    ((stopOrder s cs).foldl stopChannel s).ctl.round = none ∧
      ((stopOrder s cs).foldl stopChannel s).ctl.failedMask = [] := by
  have now (k : Nat) : outstandingNow s k = true ↔ k ∈ r.outstanding := by
    rw [outstandingNow_iff, round]
    simp
  obtain ⟨q, round', out, failed, rising', same⟩ := foldl_stopChannel_settled
    (cs := cs.filter fun k => !outstandingNow s k) rising round waits
    (fun k hk => by
      have settled := (List.mem_filter.1 hk).2
      rw [Bool.not_eq_true', ← Bool.not_eq_true, now] at settled
      exact settled)
    fun j hj hout => by
      obtain ⟨listed, runs⟩ := named j (List.mem_append_right _ hj)
      refine ⟨List.mem_filter.2 ⟨listed, ?_⟩, runs⟩
      rwa [Bool.not_eq_true', ← Bool.not_eq_true, now]
  rw [stopOrder, List.foldl_append]
  refine foldl_stopChannel_waiting rising' round' (by rwa [out]) (fun j hj => ?_) (by rwa [out])
  rw [out] at hj
  obtain ⟨listed, runs⟩ := named j (List.mem_append_left _ (List.mem_append_right _ hj))
  rw [same j hj]
  exact ⟨List.mem_filter.2 ⟨listed, (now j).2 hj⟩, runs⟩

/-- Settles O16: by one channel's stop, and the order in which a round's channels are stopped. -/
theorem stopEmptiesTheChannel : Obligations.StopEmptiesTheChannel := by
  refine ⟨fun l tag c s m h hm hc some covered => ?_, ?_, fun s cs r tables round waits named => ?_,
    fun s k => stopChannel_stopped, ?_⟩
  · have order : stopOrder (frameComplete l s) (named c) = stopOrder s (named c) := by
      unfold stopOrder outstandingNow
      rw [frameComplete_ctl]
    refine receiveRequest_fleet_answered h hm (q := .stop) rfl hc (if_neg some) (all_covered covered) ?_ tag
    rw [← order]
    rfl
  · intro s cs waits
    refine ⟨stopOrder_perm s cs, fun rising => (stopOrder_sorted s rising).imp fun h => ?_⟩
    simpa only [outstandingNow_iff] using h
  · exact foldl_stopOrder_round tables.2.2.1.1 round waits named
  · intro s k tables runs t
    have rising : Ascending s.ctl.channels := tables.2.2.1.1
    have side := roundSide_leaveRound k (abandoned k s)
    obtain ⟨channels, eval, links, frame⟩ := emptyChannel_frame k (leaveRound k (abandoned k s))
    have stop : t = emptyChannel k (leaveRound k (abandoned k s)) := stopChannel_running runs
    have units (i : Nat) : unitOf t i = if channelOfUnit i = k then emptied (unitOf s i) else unitOf s i := by
      have fleet : t.fleet = (emptySpan k s).fleet := by
        rw [stop, frame]
        show (emptySpan k (leaveRound k (abandoned k s))).fleet = _
        unfold emptySpan
        dsimp only
        rw [side.fleet]
        rfl
      rw [unitOf_congr fleet]
      exact tableGet_tableMap (fun i u => if channelOfUnit i = k then emptied u else u) tables.1.1
        (fun i => by split_ifs <;> rfl) i
    have marks := ((marked_setChannel k _ s).trans side.marked).trans (emptyChannel_marked k _)
    refine ⟨?_, fun j ne => ?_, fun i on => ?_, fun i off => ?_, ?_, ?_, fun q round => ?_, fun r round last => ?_, ?_, ?_⟩
    · rw [channelOf_stopChannel rising runs, if_pos rfl]
      cases (channelOf s k).line <;> rfl
    · rw [channelOf_stopChannel rising runs, if_neg ne]
    · rw [units, if_pos on]
      rfl
    · rw [units, if_neg off]
    · rw [stop, marks.shares]
    · rw [stop, marks.entries]
    · cases before : s.ctl.round with
      | none =>
        rw [(stopChannel_idle before k).1] at round
        cases round
      | some r =>
        by_cases last : ∀ j ∈ r.outstanding, j = k
        · rw [(stopChannel_last runs before last).1] at round
          cases round
        · push Not at last
          obtain rfl := Option.some.inj ((stopChannel_others runs before last).symm.trans round)
          simp
    · exact stopChannel_last runs round last
    · rw [stop]
      exact ((ChannelStill.of_links rfl).trans side.channel).raised (emptyChannel_raised k _)
    · rw [stop]
      refine (marks.congr (q := fun n _ => ∃ r ∈ s.shares, r.entry = n ∧ channelOfUnit r.unit = k) (fun n e => ?_)
        (fun i => rfl)).marked
      rw [side.shares]
      simp [abandoned]

end Sys2Proof.Machine

/-! PROOF. The channel line: the end of a sending, and how an answer is judged, test by test (R31 to R33, R180). -/

namespace Sys2Proof.Machine

/-! ### The wait for an answer (R31, R32) -/

theorem endChannelSending_halt {k : Nat} {s : State} {o : FrameOwner} {w : List Byte}
    (h : (channelOf s k).line = .sending .halt o w) : endChannelSending k s = setLine k .free s := by
  unfold endChannelSending
  rw [h]
  rfl

theorem endChannelSending_awaits {k : Nat} {s : State} {f : ChannelFrame} {o : FrameOwner} {w : List Byte}
    (h : (channelOf s k).line = .sending f o w) (answered : f ≠ .halt) :
    endChannelSending k s = setLine k (.awaiting f o s.ctl.replyTimeout) s := by
  unfold endChannelSending
  rw [h]
  exact if_neg answered

theorem takeAnswer_free {k : Nat} {s : State} (h : (channelOf s k).line = .free) (chars : List RxChar) :
    takeAnswer k chars s = s := by
  unfold takeAnswer
  rw [h]

theorem takeAnswer_awaiting {k : Nat} {s : State} {f : ChannelFrame} {o : FrameOwner} {w : Nat}
    (h : (channelOf s k).line = .awaiting f o w) (chars : List RxChar) :
    takeAnswer k chars s = handOutcome k o (judgeAnswer (channelOf s k) f chars).1
      (judgeAnswer (channelOf s k) f chars).2 (setLine k .free s) := by
  unfold takeAnswer
  rw [h]

theorem takeReplyWait_awaiting {k : Nat} {s : State} {f : ChannelFrame} {o : FrameOwner} {w : Nat}
    (h : (channelOf s k).line = .awaiting f o w) :
    takeReplyWait k s = handOutcome k o .timeout [] (setLine k .free s) := by
  unfold takeReplyWait
  rw [h]

theorem exec_channelFrameSent {s : State} (running : s.resetHeld = false) (k : Fin 8) :
    exec (.channelFrameSent k) s = .next (settle (endChannelSending k s)) :=
  if_neg (by simp [running])

theorem exec_channelAnswer {s : State} (running : s.resetHeld = false) (k : Fin 8) (chars : List RxChar) :
    exec (.channelAnswer k chars) s = .next (settle (takeAnswer k chars s)) :=
  if_neg (by simp [running])

theorem exec_replyWaitExpiry {s : State} (running : s.resetHeld = false) (k : Fin 8) :
    exec (.replyWaitExpiry k) s = .next (settle (takeReplyWait k s)) :=
  if_neg (by simp [running])

/-! ### The tests of an answer (R33) -/

/-- The characters up to the first that is not correctly framed. -/
theorem goodPrefix_append (bs : List Byte) {rest : List RxChar} (h : rest = [] ∨ rest.head? = some .bad) :
    goodPrefix (bs.map RxChar.ok ++ rest) = bs := by
  induction bs with
  | nil =>
    cases rest with
    | nil => rfl
    | cons ch rest =>
      obtain rfl : ch = .bad := by simpa using h
      rfl
  | cons b bs ih => exact congrArg (b :: ·) ih

/-- The bytes that an answer's declared length covers as its contents. -/
def answerContents (bs : List Byte) : List Byte := (bs.drop 4).take (readU bs 1 2 - 1)

/-- The start byte, the length and the bytes of a whole frame. -/
def AnswerFramed (bs : List Byte) : Prop :=
  bs.head? = some 0x3C#8 ∧ 3 ≤ bs.length ∧ readU bs 1 2 + 5 ≤ bs.length

def AnswerChecked (bs : List Byte) : Prop :=
  readU bs (readU bs 1 2 + 3) 2 = (crc16 ((bs.drop 1).take (readU bs 1 2 + 2))).toNat

def AnswerOfKind (frame : ChannelFrame) (bs : List Byte) : Prop :=
  1 ≤ readU bs 1 2 ∧ bs.getD 3 0 = answerKind frame

theorem not_outOfFrame {bs : List Byte} (h : AnswerFramed bs) :
    ¬(bs.head? ≠ some Config.channelStart ∨ bs.length < 3 ∨ bs.length < readU bs 1 2 + 5) := by
  rw [not_or, not_or, not_not, not_lt, not_lt]
  exact h

section
variable {bs : List Byte} {rest : List RxChar} (good : rest = [] ∨ rest.head? = some .bad) (r : ChannelRec)
  (frame : ChannelFrame)
include good

theorem judgeAnswer_of_unframed (h : ¬AnswerFramed bs) :
    judgeAnswer r frame (bs.map RxChar.ok ++ rest) = (.framing, []) := by
  unfold judgeAnswer
  rw [goodPrefix_append bs good]
  refine if_pos ?_
  by_contra no
  simp only [not_or, not_not, not_lt] at no
  exact h no

theorem judgeAnswer_of_unchecked (h : AnswerFramed bs) (check : ¬AnswerChecked bs) :
    judgeAnswer r frame (bs.map RxChar.ok ++ rest) = (.checkError, []) := by
  unfold judgeAnswer
  rw [goodPrefix_append bs good]
  exact (if_neg (not_outOfFrame h)).trans (if_pos check)

theorem judgeAnswer_of_otherKind (h : AnswerFramed bs) (check : AnswerChecked bs) (kind : ¬AnswerOfKind frame bs) :
    judgeAnswer r frame (bs.map RxChar.ok ++ rest) = (.framing, []) := by
  have other : readU bs 1 2 = 0 ∨ bs.getD 3 0 ≠ answerKind frame := by
    by_contra no
    simp only [not_or, not_not] at no
    exact kind ⟨Nat.pos_of_ne_zero no.1, no.2⟩
  unfold judgeAnswer
  rw [goodPrefix_append bs good]
  exact (if_neg (not_outOfFrame h)).trans ((if_neg (not_not.2 check)).trans (if_pos other))

theorem judgeAnswer_of_kind (h : AnswerFramed bs) (check : AnswerChecked bs) (kind : AnswerOfKind frame bs) :
    judgeAnswer r frame (bs.map RxChar.ok ++ rest) = (contentsOutcome r frame (answerContents bs), answerContents bs) := by
  have known : ¬(readU bs 1 2 = 0 ∨ bs.getD 3 0 ≠ answerKind frame) := by
    simp only [not_or, not_not]
    exact ⟨Nat.ne_of_gt kind.1, kind.2⟩
  unfold judgeAnswer
  rw [goodPrefix_append bs good]
  exact (if_neg (not_outOfFrame h)).trans ((if_neg (not_not.2 check)).trans (if_neg known))

end

/-! ### The contents of an answer (R180) -/

/-- A roster's drops rise and lie in the channel's span. -/
theorem rosterFits_iff (ds : List Nat) : rosterFits ds = true ↔ ds.Pairwise (· < ·) ∧ ∀ d ∈ ds, d ≤ 511 := by
  induction ds using rosterFits.induct with
  | case1 => simp [rosterFits]
  | case2 d => simp [rosterFits]
  | case3 d e t ih =>
    simp only [rosterFits, Bool.and_eq_true, decide_eq_true_eq, ih]
    refine ⟨fun ⟨lt, rising, bound⟩ => ⟨List.pairwise_cons.2 ⟨fun x hx => ?_, rising⟩, fun x hx => ?_⟩,
      fun ⟨rising, bound⟩ => ⟨(List.pairwise_cons.1 rising).1 e List.mem_cons_self, (List.pairwise_cons.1 rising).2,
        fun x hx => bound x (List.mem_cons_of_mem _ hx)⟩⟩
    · rcases List.mem_cons.1 hx with rfl | later
      · exact lt
      · exact lt.trans ((List.pairwise_cons.1 rising).1 x later)
    · rcases List.mem_cons.1 hx with rfl | later
      · exact (lt.trans_le (bound e List.mem_cons_self)).le
      · exact bound x later

/-- A roster's answer that its length, its count or its drops refuse. -/
def RosterBad (c : List Byte) : Prop :=
  c.length < 2 ∨ c.length < 2 + 2 * readU c 0 2 ∨ 512 < readU c 0 2 ∨
    ¬((readDrops c).Pairwise (· < ·) ∧ ∀ d ∈ readDrops c, d ≤ 511)

theorem contentsOutcome_roster_bad (r : ChannelRec) {c : List Byte} (bad : RosterBad c) :
    contentsOutcome r .roster c = .framing := by
  by_cases short : c.length < 2 ∨ 512 < readU c 0 2 ∨ c.length < 2 + 2 * readU c 0 2
  · exact if_pos short
  · refine (if_neg short).trans (if_pos ?_)
    rw [Bool.not_eq_true', ← Bool.not_eq_true, rosterFits_iff]
    unfold RosterBad at bad
    tauto

theorem contentsOutcome_roster_fits (r : ChannelRec) {c : List Byte} (fits : ¬RosterBad c) :
    contentsOutcome r .roster c = if 2 + 2 * readU c 0 2 < c.length then .extraData else .good := by
  unfold RosterBad at fits
  have long : ¬(c.length < 2 ∨ 512 < readU c 0 2 ∨ c.length < 2 + 2 * readU c 0 2) := by tauto
  refine (if_neg long).trans (if_neg ?_)
  rw [Bool.not_eq_true', ← Bool.not_eq_true, rosterFits_iff]
  tauto

/-- A page's answer that its length, its drop, its page or its count refuses. -/
def PageBad (drop page : Nat) (c : List Byte) : Prop :=
  c.length < 5 ∨ readU c 0 2 ≠ drop ∨ readU c 2 1 ≠ page ∨ 8 < readU c 4 1

theorem contentsOutcome_catalogue_bad (r : ChannelRec) {drop page : Nat} {c : List Byte}
    (bad : PageBad drop page c ∨ readDescriptors (readU c 4 1) (c.drop 5) = none) :
    contentsOutcome r (.catalogue drop page) c = .framing := by
  by_cases short : PageBad drop page c
  · exact if_pos short
  · refine (if_neg short).trans ?_
    rw [bad.resolve_left short]

theorem contentsOutcome_catalogue_read (r : ChannelRec) {drop page : Nat} {c : List Byte} {ds : List Descriptor}
    {rest : List Byte} (fits : ¬PageBad drop page c)
    (read : readDescriptors (readU c 4 1) (c.drop 5) = some (ds, rest)) :
    contentsOutcome r (.catalogue drop page) c = if rest = [] then .good else .extraData := by
  refine (if_neg fits).trans ?_
  rw [read]
  simp

theorem contentsOutcome_exchange_bad {r : ChannelRec} {c : List Byte}
    (bad : c = [] ∨ readSections r.roster.length (c.drop 1) = none) : contentsOutcome r .exchange c = .framing := by
  cases c with
  | nil => rfl
  | cons b c =>
    dsimp only [contentsOutcome]
    rw [bad.resolve_left (List.cons_ne_nil b c)]
    rfl

theorem contentsOutcome_exchange_read {r : ChannelRec} {c : List Byte} {xs : List DropSection} {rest : List Byte}
    (some : c ≠ []) (read : readSections r.roster.length (c.drop 1) = .some (xs, rest)) :
    contentsOutcome r .exchange c = if rest = [] then .good else .extraData := by
  cases c with
  | nil => exact absurd rfl some
  | cons b c =>
    dsimp only [contentsOutcome]
    rw [read]
    simp

/-! ### Descriptors and sections, one by one (R180) -/

theorem readU_one (bs : List Byte) (i : Nat) : readU bs i 1 = (bs.getD i 0).toNat := by
  unfold readU
  cases h : bs.drop i with
  | nil =>
    have out : bs.getD i 0 = 0 := by
      rw [List.getD_eq_getElem?_getD, List.getElem?_eq_none (List.drop_eq_nil_iff.1 h)]
      rfl
    rw [out]
    rfl
  | cons b t =>
    have here : bs.getD i 0 = b := by
      rw [List.getD_eq_getElem?_getD, ← List.head?_drop, h]
      rfl
    rw [here]
    simp [natOfBytes]

/-- A descriptor that its bytes do not hold whole. -/
theorem readDescriptors_short {bs : List Byte} (short : bs.length < (if readBit bs 3 0 then 16 else 12) + 1 ∨
    15 < readU bs (if readBit bs 3 0 then 16 else 12) 1 ∨ bs.length < (if readBit bs 3 0 then 16 else 12) + 1 +
      readU bs (if readBit bs 3 0 then 16 else 12) 1) (n : Nat) : readDescriptors (n + 1) bs = none := by
  have none : readDescriptor bs = none := if_pos short
  rw [readDescriptors, none]

theorem readDescriptors_cons {bs rest : List Byte} {d : Descriptor} (read : readDescriptor bs = some (d, rest))
    (n : Nat) : readDescriptors (n + 1) bs = (readDescriptors n rest).map fun p => (d :: p.1, p.2) := by
  rw [readDescriptors, read]
  dsimp only
  cases readDescriptors n rest <;> rfl

theorem readSections_short {bs : List Byte}
    (few : bs.length < 2 ∨ 16 < readU bs 1 1 ∨ bs.length < 2 + readU bs 1 1) (n : Nat) :
    readSections (n + 1) bs = none := by
  rw [readSections]
  exact if_pos few

theorem readSections_cons {bs : List Byte}
    (whole : ¬(bs.length < 2 ∨ 16 < readU bs 1 1 ∨ bs.length < 2 + readU bs 1 1)) (n : Nat) :
    readSections (n + 1) bs = (readSections n (bs.drop (2 + readU bs 1 1))).map fun p =>
      ({ present := readBit bs 0 0, bytes := (bs.drop 2).take (readU bs 1 1) } :: p.1, p.2) := by
  rw [readSections]
  refine (if_neg whole).trans ?_
  cases readSections n (bs.drop (2 + readU bs 1 1)) <;> rfl

/-- Settles O18: by the line's state, the tests of an answer in their order, and what its contents read back as. -/
theorem channelLineWaitsForItsAnswer : Obligations.ChannelLineWaitsForItsAnswer := by
  refine ⟨?_, ?_, fun drop page => ⟨rfl, rfl, rfl, rfl⟩, ?_, ?_⟩
  · intro k s running r
    refine ⟨fun o w sends => ?_, fun f o w sends answered => ?_, fun chars => if_neg (by simp [running]),
      fun chars free => ?_, fun chars f o w waits => ?_, fun f o w waits => ?_, fun outcome contents u =>
      ⟨rfl, fun good => if_pos good, fun bad => if_neg bad, rfl, rfl⟩⟩
    · rw [exec_channelFrameSent running, endChannelSending_halt sends]
      rfl
    · rw [exec_channelFrameSent running, endChannelSending_awaits sends answered]
      rfl
    · rw [exec_channelAnswer running, takeAnswer_free free]
    · rw [exec_channelAnswer running, takeAnswer_awaiting waits]
      rfl
    · rw [exec_replyWaitExpiry running, takeReplyWait_awaiting waits]
      rfl
  · intro r frame bs rest good answer len contents framed checked kind
    refine ⟨fun no => ?_, fun whole no => ?_, fun whole check no => ?_, fun whole check known => ?_⟩
    · exact congrArg Prod.fst (judgeAnswer_of_unframed good r frame no)
    · exact congrArg Prod.fst (judgeAnswer_of_unchecked good r frame whole no)
    · exact congrArg Prod.fst (judgeAnswer_of_otherKind good r frame whole check no)
    · exact judgeAnswer_of_kind good r frame whole check known
  · intro r c drop page n drops rosterBad pageBad descriptors sections
    refine ⟨?_, contentsOutcome_roster_bad r, contentsOutcome_roster_fits r, fun bad => ?_, fun ds rest fits read => ?_,
      contentsOutcome_exchange_bad, fun xs rest => contentsOutcome_exchange_read⟩
    · simp [contentsOutcome]
    · exact contentsOutcome_catalogue_bad r bad
    · exact contentsOutcome_catalogue_read r fits read
  · intro n bs fixed base name short d count few x
    refine ⟨rfl, rfl, fun h => readDescriptors_short h n, fun h => ?_, fun h => readSections_short h n,
      fun h => readSections_cons h n⟩
    have read : readDescriptor bs = some (d, bs.drop (base + 1 + name)) := by
      refine (if_neg h).trans ?_
      dsimp only [d]
      rw [readU_one bs 0, readU_one bs 1]
      rfl
    exact readDescriptors_cons read n

end Sys2Proof.Machine

/-! PROOF. Discovery: the sticky faults and the entry into FAULTED, the checks of a catalogue, and each step's answer
(R35 to R39, R50). -/

namespace Sys2Proof.Machine

/-! ### A channel's record written (listed records read back whatever the table's form) -/

theorem setChannel_setChannel {r q : ChannelRec} (hr : r ≠ ChannelRec.reset) (hq : q ≠ ChannelRec.reset) (c : Nat)
    (s : State) : setChannel c q (setChannel c r s) = setChannel c q s := by
  unfold setChannel tableSet
  rw [if_neg hr, if_neg hq]
  dsimp only
  rw [if_neg hq, tableInsert_tableInsert]

theorem listed_of_discovery {r : ChannelRec} {d : Discovery} (h : r.discovery = some d) : r ≠ ChannelRec.reset := by
  rintro rfl
  cases h

theorem listed_of_state {r : ChannelRec} (h : r.state ≠ .stopped) : r ≠ ChannelRec.reset := by
  rintro rfl
  exact h rfl

theorem listed_of_sticky {r : ChannelRec} (h : r.sticky ≠ FaultSet.none) : r ≠ ChannelRec.reset := by
  rintro rfl
  exact h rfl

/-- A channel's record written with its CHANNEL event. -/
theorem channelRaised_set (c : Nat) (r : ChannelRec) (s : State) :
    ChannelRaised s (raiseChannel c (setChannel c r s)) c := by
  have same : ChannelStill s (setChannel c r s) := .of_links rfl
  exact same.raised (channelRaised_raise c _)

theorem raiseChannel_maps (c : Nat) (s : State) :
    (raiseChannel c s).links.mapA = s.links.mapA ∧ (raiseChannel c s).links.mapB = s.links.mapB := by
  obtain ⟨mapA, mapB, _⟩ := (channelRaised_raiseChannel c s).2.1
  exact ⟨mapA, mapB⟩

/-! ### The sticky faults and FAULTED (R50, R54) -/

theorem setSticky_same {c : Nat} {f : FaultSet} {s : State} (h : f = (channelOf s c).sticky) : setSticky c f s = s :=
  if_pos h

theorem setSticky_new {c : Nat} {f : FaultSet} {s : State} (h : f ≠ (channelOf s c).sticky) :
    setSticky c f s = raiseChannel c (setChannel c { channelOf s c with sticky := f } s) :=
  if_neg h

theorem channelOf_setSticky {c : Nat} {f : FaultSet} (some : f ≠ FaultSet.none) (s : State) (j : Nat) :
    channelOf (setSticky c f s) j = if j = c then { channelOf s c with sticky := f } else channelOf s j := by
  by_cases same : f = (channelOf s c).sticky
  · rw [setSticky_same same]
    split_ifs with h
    · rw [h, same]
    · rfl
  · rw [setSticky_new same, channelOf_raiseChannel,
      channelOf_setChannel_listed (r := { channelOf s c with sticky := f }) (listed_of_sticky some)]

theorem channelsOnly_setSticky (c : Nat) (f : FaultSet) (s : State) : ChannelsOnly s (setSticky c f s) := by
  by_cases same : f = (channelOf s c).sticky
  · rw [setSticky_same same]
    exact .refl s
  · rw [setSticky_new same]
    exact (channelsOnly_setChannel ..).trans (channelsOnly_raiseChannel ..)

theorem marked_setSticky (c : Nat) (f : FaultSet) (s : State) :
    Marked s (setSticky c f s) (fun _ _ => False) (fun _ => false) := by
  by_cases same : f = (channelOf s c).sticky
  · rw [setSticky_same same]
    exact .still rfl rfl rfl
  · rw [setSticky_new same]
    exact ((marked_setChannel c { channelOf s c with sticky := f } s).trans (marked_raiseChannel ..)).congr
      (fun n e => by simp) (fun i => by simp)

theorem setSticky_raised {c : Nat} {f : FaultSet} {s : State} (new : f ≠ (channelOf s c).sticky) :
    ChannelRaised s (setSticky c f s) c := by
  rw [setSticky_new new]
  exact channelRaised_set c _ s

theorem setSticky_maps (c : Nat) (f : FaultSet) (s : State) :
    (setSticky c f s).links.mapA = s.links.mapA ∧ (setSticky c f s).links.mapB = s.links.mapB := by
  by_cases same : f = (channelOf s c).sticky
  · rw [setSticky_same same]
    exact ⟨rfl, rfl⟩
  · have written : (setChannel c { channelOf s c with sticky := f } s).links = s.links := rfl
    rw [setSticky_new same, ← written]
    exact raiseChannel_maps ..

/-- A channel's entry into FAULTED (R50). -/
theorem channelOf_faultChannel (c : Nat) (s : State) (j : Nat) :
    channelOf (faultChannel c s) j = if j = c then afterFault (channelOf s c) else channelOf s j := by
  dsimp only [faultChannel]
  rw [channelOf_raiseChannel, channelOf_congr (congrArg Controller.channels (spanLost_ctl ..))]
  exact channelOf_setChannel_listed (by simp [ChannelRec.reset]) c j s

theorem channelsOnly_faultChannel (c : Nat) (s : State) : ChannelsOnly s (faultChannel c s) := by
  dsimp only [faultChannel]
  exact (channelsOnly_setChannel ..).trans ((channelsOnly_spanLost ..).trans (channelsOnly_raiseChannel ..))

theorem faultChannel_raised (c : Nat) (s : State) : ChannelRaised s (faultChannel c s) c := by
  dsimp only [faultChannel]
  refine (ChannelStill.of_links ?_).raised (channelRaised_raise c _)
  rw [spanLost_links]
  rfl

theorem marked_faultChannel (c : Nat) (s : State) : Marked s (faultChannel c s)
    (fun n _ => ∃ r ∈ s.shares, r.entry = n ∧ channelOfUnit r.unit = c) (fun i => channelOfUnit i == c) := by
  dsimp only [faultChannel]
  exact (((marked_setChannel c _ s).trans (marked_markOnUnits (fun i => channelOfUnit i == c) _)).trans
    ((marked_disturb (fun i => channelOfUnit i == c) _).trans (marked_raiseChannel c _))).congr
    (fun n e => by simp [setChannel]) (fun i => by simp)

/-- A fault that sends its channel to FAULTED. -/
theorem faulted_raised (c : Nat) (f : FaultSet) (s : State) : ChannelRaised s (faultChannel c (setSticky c f s)) c := by
  by_cases same : f = (channelOf s c).sticky
  · rw [setSticky_same same]
    exact faultChannel_raised c s
  · exact (setSticky_raised same).again (setSticky_maps c f s) (faultChannel_raised c _)

theorem channelOf_faulted {c : Nat} {f : FaultSet} (some : f ≠ FaultSet.none) (s : State) (j : Nat) :
    channelOf (faultChannel c (setSticky c f s)) j =
      if j = c then afterFault { channelOf s c with sticky := f } else channelOf s j := by
  rw [channelOf_faultChannel, channelOf_setSticky some, channelOf_setSticky some, if_pos rfl]
  split_ifs <;> rfl

theorem marked_faulted (c : Nat) (f : FaultSet) (s : State) : Marked s (faultChannel c (setSticky c f s))
    (fun n _ => ∃ r ∈ s.shares, r.entry = n ∧ channelOfUnit r.unit = c) (fun i => channelOfUnit i == c) := by
  have sticky := marked_setSticky c f s
  refine (sticky.trans (marked_faultChannel c _)).congr (fun n e => ?_) (fun i => by simp)
  rw [sticky.shares]
  simp

/-! ### The checks of a catalogue (R38) -/

/-- A check of every record finds one that fails it. -/
theorem not_all_iff {p : Descriptor → Bool} {q : Descriptor → Prop} (h : ∀ d, p d = false ↔ q d)
    (cat : List Descriptor) : (!cat.all p) = true ↔ ∃ d ∈ cat, q d := by
  simp [h]

theorem kindAllowed_iff (d : Descriptor) : kindAllowed d = false ↔ some d.dir ≠ (match d.kind with
    | .soc | .measuredPower | .pad => some .reported
    | .setpoint => some .commanded
    | .energy | .feeder | .dischargePower | .chargePower | .efficiency => some .fixed
    | .unknown _ => none) := by
  unfold kindAllowed
  cases d.kind <;> simp

theorem kindsOnce_iff (cat : List Descriptor) :
    kindsOnce cat = true ↔ ((cat.map Descriptor.kind).filter fun x => x ≠ .pad).Nodup := by
  induction cat with
  | nil => simp [kindsOnce]
  | cons d t ih =>
    simp only [kindsOnce, Bool.and_eq_true, ih, List.map_cons, List.filter_cons]
    by_cases pad : d.kind = .pad
    · simp [pad]
    · simp [pad, List.nodup_cons]

theorem fixedFits_iff (d : Descriptor) : fixedFits d = false ↔ ¬(d.dir = .fixed ↔ d.fixedValue ≠ none) := by
  unfold fixedFits
  cases d.fixedValue <;> simp

theorem widthFits_iff (d : Descriptor) :
    widthFits d = false ↔ d.dir ≠ .fixed ∧ ¬(1 ≤ d.width ∧ d.width ≤ 32) := by
  simp [widthFits]

theorem recordOf_isSome_iff (cat : List Descriptor) (k : DescKind) :
    (recordOf cat k).isSome = true ↔ k ∈ cat.map Descriptor.kind := by
  simp [recordOf, List.find?_isSome]

theorem scaleFits_iff (d : Descriptor) : scaleFits d = false ↔ (d.kind = .soc ∧ d.max < d.min) ∨
    ((d.kind = .measuredPower ∨ d.kind = .setpoint) ∧ (d.width < 2 ∨ d.max ≤ 0 ∨ d.min ≠ -d.max)) := by
  unfold scaleFits
  cases d.kind <;> simp <;> omega

/-- A record of a kind that appears once is the one that is found. -/
theorem recordOf_eq_of_mem {cat : List Descriptor} {d : Descriptor} (once : kindsOnce cat = true) (mem : d ∈ cat)
    (h : d.kind ≠ .pad) : recordOf cat d.kind = some d := by
  induction cat with
  | nil => cases mem
  | cons e t ih =>
    simp only [kindsOnce, Bool.and_eq_true] at once
    obtain ⟨first, once⟩ := once
    rcases List.mem_cons.1 mem with rfl | later
    · simp [recordOf]
    · have other : (e.kind == d.kind) = false := by
        by_contra same
        have same : e.kind = d.kind := by simpa using same
        rw [same] at first
        simp only [Bool.or_eq_true, beq_iff_eq, h, false_or, Bool.not_eq_true', List.any_eq_false] at first
        exact first d later rfl
      have found := ih once later
      unfold recordOf at found ⊢
      rw [List.find?_cons, other]
      exact found

theorem feederFits_iff {cat : List Descriptor} (once : kindsOnce cat = true) : feederFits cat = false ↔
    ∃ d ∈ cat, d.kind = .feeder ∧ (d.fixedValue.getD 0 < 0 ∨ 63 < d.fixedValue.getD 0) := by
  unfold feederFits
  constructor
  · intro bad
    cases found : recordOf cat .feeder with
    | none => rw [found] at bad; cases bad
    | some d =>
      rw [found] at bad
      have kind : d.kind = .feeder := by simpa using List.find?_some found
      refine ⟨d, List.mem_of_find?_eq_some found, kind, ?_⟩
      simp at bad
      omega
  · rintro ⟨d, mem, kind, out⟩
    have found := recordOf_eq_of_mem once mem (by simp [kind])
    rw [kind] at found
    rw [found]
    simp
    omega

/-- The site identifier as the rule's arithmetic gives it (R13). -/
theorem siteIdentifier_eq (cat : List Descriptor) : siteIdentifier cat =
    BitVec.ofNat 32 ((cat.flatMap Descriptor.name).foldl (fun a b => (a * 33 + b.toNat) % 4294967296) 0) := by
  have step (l : List Byte) (a : BitVec 32) (n : Nat) (h : a = BitVec.ofNat 32 n) :
      l.foldl (fun (a : BitVec 32) b => a * 33#32 + b.setWidth 32) a =
        BitVec.ofNat 32 (l.foldl (fun a b => (a * 33 + b.toNat) % 4294967296) n) := by
    induction l generalizing a n with
    | nil => exact h
    | cons b l ih =>
      refine ih _ _ (BitVec.eq_of_toNat_eq ?_)
      rw [h]
      simp [BitVec.toNat_add, BitVec.toNat_mul]
  exact step _ _ _ rfl

theorem requiredPresent_iff (cat : List Descriptor) : (!requiredPresent cat) = true ↔
    ∃ x ∈ [DescKind.soc, .measuredPower, .setpoint, .energy, .feeder], x ∉ cat.map Descriptor.kind := by
  simp only [requiredPresent, Bool.not_eq_true', List.all_eq_false, recordOf_isSome_iff]

/-! ### The steps of discovery (R35 to R37, R39) -/

section
variable {k : Nat} {s : State} {d : Discovery} (now : (channelOf s k).discovery = some d)
include now

theorem discoveryOutcome_arm (step : d.step = .arm) (contents : List Byte) : discoveryOutcome k .good contents s =
    setDiscovery k { step := .roster, attempt := 1, position := 0, page := 0, records := [] } s := by
  unfold discoveryOutcome
  rw [now]
  dsimp only
  rw [step]
  exact if_pos rfl

theorem discoveryOutcome_roster (step : d.step = .roster) (contents : List Byte) :
    discoveryOutcome k .good contents s = takeRoster k contents s := by
  unfold discoveryOutcome
  rw [now]
  dsimp only
  rw [step]
  exact if_pos rfl

theorem discoveryOutcome_failed (step : d.step ≠ .catalogue) {o : ReplyOutcome} (bad : o ≠ .good)
    (contents : List Byte) : discoveryOutcome k o contents s = failedAttempt k d s := by
  unfold discoveryOutcome
  rw [now]
  dsimp only
  cases h : d.step with
  | arm => exact if_neg bad
  | roster => exact if_neg bad
  | catalogue => exact absurd h step

theorem discoveryOutcome_page (step : d.step = .catalogue) (contents : List Byte) :
    discoveryOutcome k .good contents s = takePage k d contents s := by
  unfold discoveryOutcome
  rw [now]
  dsimp only
  rw [step]
  exact if_pos rfl

theorem discoveryOutcome_failedPage (step : d.step = .catalogue) {o : ReplyOutcome} (bad : o ≠ .good)
    (contents : List Byte) : discoveryOutcome k o contents s = failedPage k d s := by
  unfold discoveryOutcome
  rw [now]
  dsimp only
  rw [step]
  exact if_neg bad

end

/-- A roster that is taken while discovery is in progress. -/
theorem channelOf_setRoster {k : Nat} {s : State} {d : Discovery} (now : (channelOf s k).discovery = some d)
    (ds : List Nat) : channelOf (setChannel k { channelOf s k with roster := ds } s) k =
      { channelOf s k with roster := ds } :=
  (channelOf_setChannel_listed (r := { channelOf s k with roster := ds }) (listed_of_discovery now) k k s).trans
    (if_pos rfl)

theorem takeRoster_empty {k : Nat} {s : State} {d : Discovery} {c : List Byte}
    (now : (channelOf s k).discovery = some d) (empty : readDrops c = []) : takeRoster k c s =
      raiseChannel k (setChannel k { channelOf s k with roster := [], discovery := none, state := .idling } s) := by
  unfold takeRoster
  dsimp only
  rw [empty]
  refine (if_pos rfl).trans ?_
  rw [completeDiscovery, channelOf_setRoster now, setChannel_setChannel (r := { channelOf s k with roster := [] })
    (listed_of_discovery now) (listed_of_state (by simp))]

theorem takeRoster_some {k : Nat} {s : State} {d : Discovery} {c : List Byte}
    (now : (channelOf s k).discovery = some d) (listed : readDrops c ≠ []) : takeRoster k c s =
      setChannel k { channelOf s k with
        roster := readDrops c
        discovery := some { step := .catalogue, attempt := 1, position := 0, page := 0, records := [] } } s := by
  unfold takeRoster
  refine (if_neg (by simpa using listed)).trans ?_
  rw [setDiscovery, channelOf_setRoster now, setChannel_setChannel (r := { channelOf s k with roster := readDrops c })
    (listed_of_discovery now) (listed_of_discovery rfl)]

theorem failedAttempt_again {k : Nat} {d : Discovery} (h : d.attempt < 3) (s : State) :
    failedAttempt k d s = setDiscovery k { d with attempt := d.attempt + 1 } s :=
  if_pos h

theorem failedAttempt_last {k : Nat} {d : Discovery} (h : 3 ≤ d.attempt) (s : State) :
    failedAttempt k d s = faultChannel k (setSticky k { (channelOf s k).sticky with timeout := true } s) :=
  if_neg (not_lt.2 h)

/-- The unit of a discovery's drop. -/
def unitInDiscovery (k : Nat) (d : Discovery) (s : State) : Nat :=
  512 * k + (channelOf s k).roster.getD d.position 0

theorem unitIndex_eq (k drop : Nat) : unitIndex k drop = 512 * k + drop := by
  simp [unitIndex, Config.spanUnits, Nat.mul_comm]

theorem takePage_more {k : Nat} {d : Discovery} {c : List Byte} {ds : List Descriptor} {rest : List Byte}
    (read : readDescriptors (readU c 4 1) (c.drop 5) = some (ds, rest)) (more : readBit c 3 0 = true) (s : State) :
    takePage k d c s = if d.page = 0 then
        setDiscovery k { d with attempt := 1, page := 1, records := d.records ++ ds } s
      else nextDrop k d (rejectCatalogue (unitInDiscovery k d s) .payloadTooLong s) := by
  unfold takePage
  dsimp only
  rw [read, unitIndex_eq]
  exact if_pos more

theorem takePage_complete {k : Nat} {d : Discovery} {c : List Byte} {ds : List Descriptor} {rest : List Byte}
    (read : readDescriptors (readU c 4 1) (c.drop 5) = some (ds, rest)) (more : readBit c 3 0 = false) (s : State) :
    takePage k d c s = nextDrop k d (takeCatalogue (unitInDiscovery k d s) (d.records ++ ds) s) := by
  unfold takePage
  dsimp only
  rw [read, unitIndex_eq]
  exact if_neg (by simp [more])

theorem failedPage_again {k : Nat} {d : Discovery} (h : d.attempt < 2) (s : State) :
    failedPage k d s = setDiscovery k { d with attempt := d.attempt + 1 } s :=
  if_pos h

theorem failedPage_last {k : Nat} {d : Discovery} (h : 2 ≤ d.attempt) (s : State) :
    failedPage k d s = nextDrop k d (rejectCatalogue (unitInDiscovery k d s) .missingRecord s) := by
  unfold failedPage
  rw [unitIndex_eq]
  exact if_neg (not_lt.2 h)

theorem takeCatalogue_accepted {cat : List Descriptor} (h : catalogueFault cat = none) (i : Nat) (s : State) :
    takeCatalogue i cat s = setUnit i (acceptedUnit cat) s := by
  unfold takeCatalogue
  rw [h]
  rfl

theorem takeCatalogue_rejected {cat : List Descriptor} {reason : RejectReason} (h : catalogueFault cat = some reason)
    (i : Nat) (s : State) : takeCatalogue i cat s = rejectCatalogue i reason s := by
  unfold takeCatalogue
  rw [h]

/-- What a channel frame's check covers. -/
def channelBody (kind : Byte) (c : List Byte) : List Byte := putU 2 (c.length + 1) ++ kind :: c

theorem channelBody_length (kind : Byte) (c : List Byte) : (channelBody kind c).length = c.length + 3 := by
  simp [channelBody, putU_length]
  omega

theorem channelWire_eq (kind : Byte) (c : List Byte) : channelWire kind c =
    (0x3C#8 :: channelBody kind c) ++ putU 2 (crc16 (channelBody kind c)).toNat := by
  have small : (crc16 (channelBody kind c)).toNat < 256 ^ 2 := (crc16 (channelBody kind c)).isLt
  rw [putU, if_pos small]
  rfl

theorem readU_channelWire_length {c : List Byte} (h : c.length < 65535) (kind : Byte) :
    readU (channelWire kind c) 1 2 = c.length + 1 := by
  have split : channelWire kind c =
      [0x3C#8] ++ putU 2 (c.length + 1) ++ (kind :: c ++ putU 2 (crc16 (channelBody kind c)).toNat) := by
    rw [channelWire_eq]
    simp [channelBody]
  rw [split]
  exact readU_putU (before := [0x3C#8]) (by omega) _

theorem drop_channelWire (kind : Byte) (c : List Byte) :
    (channelWire kind c).drop 3 = kind :: c ++ putU 2 (crc16 (channelBody kind c)).toNat := by
  have split : channelWire kind c =
      (0x3C#8 :: putU 2 (c.length + 1)) ++ (kind :: c ++ putU 2 (crc16 (channelBody kind c)).toNat) := by
    rw [channelWire_eq]
    simp [channelBody]
  rw [split]
  exact List.drop_left' (by simp [putU_length])

/-- A frame of the kind awaited is judged by its contents (R33, R180). -/
theorem judgeAnswer_channelWire (r : ChannelRec) (frame : ChannelFrame) {c : List Byte} (h : c.length < 65535) :
    judgeAnswer r frame ((channelWire (answerKind frame) c).map .ok) = (contentsOutcome r frame c, c) := by
  set bs := channelWire (answerKind frame) c with hbs
  have len : readU bs 1 2 = c.length + 1 := readU_channelWire_length h _
  have wire : bs = (0x3C#8 :: channelBody (answerKind frame) c) ++
      putU 2 (crc16 (channelBody (answerKind frame) c)).toNat := channelWire_eq ..
  have size : bs.length = c.length + 6 := by
    rw [wire]
    simp [channelBody_length, putU_length]
  have later : bs.drop 3 = _ := drop_channelWire (answerKind frame) c
  have framed : AnswerFramed bs := ⟨by rw [wire]; rfl, by omega, by omega⟩
  have checked : AnswerChecked bs := by
    have covered : (bs.drop 1).take (c.length + 1 + 2) = channelBody (answerKind frame) c := by
      rw [wire]
      exact List.take_left' (channelBody_length ..)
    have check := readU_putU (n := 2) (crc16 (channelBody (answerKind frame) c)).isLt
      (0x3C#8 :: channelBody (answerKind frame) c) []
    rw [List.append_nil, ← wire, List.length_cons, channelBody_length] at check
    rw [AnswerChecked, len, covered]
    exact check
  have kind : AnswerOfKind frame bs := by
    refine ⟨by omega, ?_⟩
    rw [List.getD_eq_getElem?_getD, ← List.head?_drop, later]
    rfl
  have contents : answerContents bs = c := by
    have drop4 : bs.drop 4 = c ++ putU 2 (crc16 (channelBody (answerKind frame) c)).toNat := by
      rw [show (4 : Nat) = 3 + 1 from rfl, ← List.drop_drop, later]
      rfl
    rw [answerContents, len, drop4]
    exact List.take_left' rfl
  have judged := judgeAnswer_of_kind (rest := []) (.inl rfl) r frame framed checked kind
  rwa [List.append_nil, contents] at judged

/-- Settles O19: by the steps of discovery, and the checks of a catalogue one by one. -/
theorem armAnswersMoveDiscovery : Obligations.ArmAnswersMoveDiscovery := by
  refine ⟨fun k s w d running waits now step => ?_, ?_, fun cat => ?_⟩
  · have listed : { channelOf s k with line := ChannelLine.free } ≠ ChannelRec.reset := listed_of_discovery (d := d) now
    have free (j : Nat) := channelOf_setChannel_listed listed k j s
    set u := setLine k .free s with hu
    have same : channelOf u k = { channelOf s k with line := .free } := (free k).trans (if_pos rfl)
    have now' : (channelOf u k).discovery = some d := by rw [same]; exact now
    have put (d' : Discovery) : setDiscovery k d' u =
        setChannel k { channelOf s k with line := .free, discovery := some d' } s := by
      unfold setDiscovery
      rw [same]
      exact setChannel_setChannel listed (listed_of_discovery (d := d') rfl) k s
    have expires : exec (.replyWaitExpiry k) s = .next (settle (failedAttempt k d u)) := by
      rw [exec_replyWaitExpiry running, takeReplyWait_awaiting waits]
      exact congrArg (fun t => Host.Outcome.next (settle t))
        (discoveryOutcome_failed now' (by simp [step]) (by simp) [])
    refine ⟨?_, fun again => ?_, fun last => ⟨_, expires, ?_⟩⟩
    · have judged : judgeAnswer (channelOf s k) .arm ((channelWire 0x81#8 []).map .ok) = (.good, []) :=
        judgeAnswer_channelWire (channelOf s k) .arm (c := []) (by decide)
      rw [exec_channelAnswer running, takeAnswer_awaiting waits, judged, ← put]
      exact congrArg (fun t => Host.Outcome.next (settle t)) (discoveryOutcome_arm now' step [])
    · rw [expires, failedAttempt_again again, put]
    · have marks := ((marked_setChannel k { channelOf s k with line := .free } s).trans
        (marked_faulted k { (channelOf u k).sticky with timeout := true } u)).congr
        (q := fun n _ => ∃ r ∈ s.shares, r.entry = n ∧ channelOfUnit r.unit = k) (fun n e => by simp [hu, setLine])
        (fun i => rfl)
      rw [failedAttempt_last last]
      refine ⟨?_, (faulted_raised ..).1, marks.shares, marks.marked⟩
      rw [channelOf_faulted (by simp [FaultSet.none]), if_pos rfl, same]
      rfl
  · intro k o c s d now t r put drop i wrote rejected
    have listed : channelOf s k ≠ ChannelRec.reset := listed_of_discovery now
    have next (u : UnitRec) : nextDrop k d (setUnit i u s) = wrote u := rfl
    refine ⟨fun step good => ?_, fun step good empty => ?_, fun step good some => ?_, fun step bad again => ?_,
      fun step bad last => ?_, fun ds rest step good read => ?_, fun step bad again => ?_, fun step bad last => ?_⟩
    · subst good
      exact discoveryOutcome_arm now step c
    · subst good
      exact (discoveryOutcome_roster now step c).trans (takeRoster_empty now empty)
    · subst good
      exact (discoveryOutcome_roster now step c).trans (takeRoster_some now some)
    · exact (discoveryOutcome_failed now step bad c).trans (failedAttempt_again again s)
    · have fault : t = faultChannel k (setSticky k { r.sticky with timeout := true } s) :=
        (discoveryOutcome_failed now step bad c).trans (failedAttempt_last last s)
      have written := channelOf_faulted (c := k) (f := { r.sticky with timeout := true }) (by simp [FaultSet.none]) s
      rw [fault]
      exact ⟨(written k).trans (if_pos rfl), fun j ne => (written j).trans (if_neg ne), faulted_raised .., (marked_faulted ..).marked⟩
    · subst good
      have page := discoveryOutcome_page now step c
      refine ⟨fun more first => ?_, fun more later => ?_, fun more fine => ?_, fun reason more bad => ?_⟩
      · exact page.trans ((takePage_more read more s).trans (if_pos first))
      · exact page.trans ((takePage_more read more s).trans (if_neg later))
      · exact page.trans ((takePage_complete read more s).trans ((congrArg (nextDrop k d) (takeCatalogue_accepted fine i s)).trans
          (next _)))
      · exact page.trans ((takePage_complete read more s).trans ((congrArg (nextDrop k d) (takeCatalogue_rejected bad i s)).trans
          (next _)))
    · exact (discoveryOutcome_failedPage now step bad c).trans (failedPage_again again s)
    · exact (discoveryOutcome_failedPage now step bad c).trans (failedPage_last last s)
  · intro width
    refine ⟨?_, ?_⟩
    · refine ite_congr (by simp) (fun _ => rfl) fun _ => ?_
      refine ite_congr (propext (not_all_iff kindAllowed_iff cat)) (fun _ => rfl) fun _ => ?_
      refine ite_congr (propext ?_) (fun _ => rfl) fun once => ?_
      · rw [Bool.not_eq_true', ← Bool.not_eq_true, kindsOnce_iff]
      refine ite_congr (propext (not_all_iff fixedFits_iff cat)) (fun _ => rfl) fun _ => ?_
      refine ite_congr (propext (not_all_iff widthFits_iff cat)) (fun _ => rfl) fun _ => ?_
      refine ite_congr (propext (requiredPresent_iff cat)) (fun _ => rfl) fun _ => ?_
      refine ite_congr (propext (not_all_iff scaleFits_iff cat)) (fun _ => rfl) fun _ => ?_
      refine ite_congr rfl (fun _ => rfl) fun _ => ?_
      refine ite_congr (propext ?_) (fun _ => rfl) fun _ => rfl
      rw [not_not, ← kindsOnce_iff] at once
      rw [Bool.not_eq_true', feederFits_iff once]
    · intro value
      unfold acceptedUnit
      rw [siteIdentifier_eq]
      rfl

end Sys2Proof.Machine

/-! PROOF. Drop reports: how telemetry is decoded, what a good and a missing report write to their unit, and the events
they raise (R14, R15, R20, R21, R26 to R28, R47, R180). -/

namespace Sys2Proof.Machine

/-! ### The sections of an EXCHANGE answer (R180) -/

/-- A section as it stands in an answer. -/
def sectionBytes (x : DropSection) : List Byte := putFlags [x.present] ++ putU 1 x.bytes.length ++ x.bytes

theorem sectionBytes_eq {x : DropSection} (fits : x.bytes.length ≤ 16) :
    sectionBytes x = BitVec.ofNat 8 (if x.present then 1 else 0) :: BitVec.ofNat 8 x.bytes.length :: x.bytes := by
  have count : x.bytes.length < 256 ^ 1 := by omega
  unfold sectionBytes putFlags putU
  rw [if_pos count]
  cases x.present <;> simp [flagBits, leBytes]

theorem readSections_section {x : DropSection} (fits : x.bytes.length ≤ 16) (n : Nat) (more : List Byte) :
    readSections (n + 1) (sectionBytes x ++ more) = (readSections n more).map fun p => (x :: p.1, p.2) := by
  rw [sectionBytes_eq fits]
  set bs := BitVec.ofNat 8 (if x.present then 1 else 0) :: BitVec.ofNat 8 x.bytes.length :: x.bytes ++ more with hbs
  have count : readU bs 1 1 = x.bytes.length := by
    rw [readU_one]
    show (BitVec.ofNat 8 x.bytes.length).toNat = _
    rw [BitVec.toNat_ofNat, Nat.mod_eq_of_lt (by omega)]
  have flag : readBit bs 0 0 = x.present := by
    rw [readBit, readU_one]
    show (BitVec.ofNat 8 (if x.present then 1 else 0)).toNat.testBit 0 = _
    cases x.present <;> rfl
  have size : bs.length = 2 + x.bytes.length + more.length := by
    simp [hbs]
    omega
  have later : bs.drop 2 = x.bytes ++ more := rfl
  rw [readSections_cons (by omega), count, flag, ← List.drop_drop, later, List.drop_left, List.take_left]

theorem readSections_sections {xs : List DropSection} (fits : ∀ x ∈ xs, x.bytes.length ≤ 16) (rest : List Byte) :
    readSections xs.length (xs.flatMap sectionBytes ++ rest) = some (xs, rest) := by
  induction xs with
  | nil => rfl
  | cons x xs ih =>
    rw [List.flatMap_cons, List.append_assoc, List.length_cons, readSections_section (fits x List.mem_cons_self),
      ih fun y hy => fits y (List.mem_cons_of_mem _ hy)]
    rfl

/-! ### Telemetry (R26 to R28) -/

/-- The field of the first record of a kind stands above those of the records before it. -/
theorem reportedField_eq {before after : List Descriptor} {d : Descriptor} (first : ∀ x ∈ before, x.kind ≠ d.kind)
    (bits : Nat) : reportedField d.kind (before ++ d :: after) bits =
      some (d, bits / 2 ^ (before.map Descriptor.width).sum % 2 ^ d.width) := by
  induction before generalizing bits with
  | nil => simp [reportedField]
  | cons x before ih =>
    have other : x.kind ≠ d.kind := first x List.mem_cons_self
    rw [List.cons_append, reportedField, if_neg other, ih (fun y hy => first y (List.mem_cons_of_mem _ hy)),
      Nat.div_div_eq_div_mul, ← pow_add]
    simp

/-! ### A unit's new record and the event of its contribution (R20, R21, R162) -/

/-- A unit begins to contribute, or loses its contribution, or neither. -/
def contributionEvent (gained lost : Bool) (i : Nat) (s : State) : State :=
  if gained then contributionGained s else if lost then contributionLost i s else s

theorem contributionEvent_frame (gained lost : Bool) (i : Nat) (s : State) :
    contributionEvent gained lost i s = { s with eval := (contributionEvent gained lost i s).eval } := by
  unfold contributionEvent
  split_ifs
  · rfl
  · exact contributionLost_frame i s
  · rfl

theorem marked_contributionEvent (gained lost : Bool) (i : Nat) (s : State) :
    Marked s (contributionEvent gained lost i s)
      (fun n e => (gained = true ∧ e.uncovered ≠ 0) ∨
        (gained = false ∧ lost = true ∧ ∃ r ∈ s.shares, r.entry = n ∧ r.unit = i))
      (fun k => !gained && lost && k == i) := by
  unfold contributionEvent
  cases gained with
  | true => exact (marked_contributionGained s).congr (fun n e => by simp) (fun k => by simp)
  | false =>
    cases lost with
    | true => exact (marked_contributionLost i s).congr (fun n e => by simp) (fun k => by simp)
    | false => exact (Marked.still rfl rfl rfl).congr (fun n e => by simp) (fun k => by simp)

/-- An event on no unit leaves the job as it is. -/
theorem job_of_disturbs_nothing {s t : State} (h : Disturbs s t (fun _ => false)) : t.eval.job = s.eval.job := by
  have nothing (l : List Nat) : l.any (fun _ => false) = false := by simp
  rw [h]
  cases s.eval.job with
  | none => rfl
  | some j => simp [nothing]

/-- The unit with its new record, and the event of its contribution. -/
def withReport (i : Nat) (v : UnitRec) (gained lost : Bool) (s : State) : State :=
  contributionEvent gained lost i (setUnit i v s)

theorem withReport_frame (i : Nat) (v : UnitRec) (gained lost : Bool) (s : State) :
    withReport i v gained lost s = { setUnit i v s with eval := (withReport i v gained lost s).eval } :=
  contributionEvent_frame ..

theorem unitOf_withReport {s : State} (rising : Ascending s.fleet.units) (i : Nat) (v : UnitRec) (gained lost : Bool)
    (k : Nat) : unitOf (withReport i v gained lost s) k = if k = i then v else unitOf s k := by
  rw [unitOf_congr (s := setUnit i v s) (by rw [withReport_frame]), unitOf_setUnit rising]

theorem contributing_withReport {s : State} (rising : Ascending s.fleet.units) (i : Nat) (v : UnitRec)
    (gained lost : Bool) (k : Nat) : contributing (withReport i v gained lost s) k =
      if k = i then decide (v.state = .ready) && onRunningChannel s i && !v.excluded else contributing s k := by
  have channel : onRunningChannel (withReport i v gained lost s) k = onRunningChannel s k := by
    unfold onRunningChannel
    rw [channelOf_congr (s := s) (by rw [withReport_frame]; rfl)]
  unfold contributing
  rw [channel, unitOf_withReport rising]
  split_ifs with same
  · rw [same]
  · rfl

theorem marked_withReport (i : Nat) (v : UnitRec) (gained lost : Bool) (s : State) :
    Marked s (withReport i v gained lost s)
      (fun n e => (gained = true ∧ e.uncovered ≠ 0) ∨
        (gained = false ∧ lost = true ∧ ∃ r ∈ s.shares, r.entry = n ∧ r.unit = i))
      (fun k => !gained && lost && k == i) := by
  have written : Marked s (setUnit i v s) (fun _ _ => False) (fun _ => false) := .still rfl rfl rfl
  exact (written.trans (marked_contributionEvent gained lost i _)).congr (fun n e => by simp [setUnit])
    (fun k => by simp)

/-! ### A missing report (R15) -/

/-- A unit that reports count for: in PROBING, READY or LOST. -/
def Reporting (u : UnitRec) : Prop := u.state = .probing ∨ u.state = .ready ∨ u.state = .lost

theorem afterMiss_still {limit : Nat} {u : UnitRec} (h : u.state ≠ .probing) (g : u.state ≠ .ready) :
    afterMiss limit u = u := by
  simp [afterMiss, h, g]

theorem missingReport_counted {i : Nat} {s : State}
    (h : (unitOf s i).state = .probing ∨ (unitOf s i).state = .ready) :
    missingReport i s = withReport i (afterMiss s.fleet.lostLimit (unitOf s i)) false
      (contributing s i && decide ((afterMiss s.fleet.lostLimit (unitOf s i)).state = .lost)) s := by
  unfold missingReport withReport contributionEvent
  dsimp only
  rcases h with h | h
  · have idle : contributing s i = false := by simp [contributing, h]
    rw [h, idle]
    simp [afterMiss, h]
  · rw [h]
    dsimp only
    by_cases last : (unitOf s i).miss + 1 = s.fleet.lostLimit
    · simp [afterMiss, h, last]
    · simp [afterMiss, h, last]

theorem missingReport_still {i : Nat} {s : State} (h : (unitOf s i).state ≠ .probing)
    (g : (unitOf s i).state ≠ .ready) : missingReport i s = s := by
  unfold missingReport
  dsimp only
  cases state : (unitOf s i).state with
  | probing => exact absurd state h
  | ready => exact absurd state g
  | lost => rfl
  | empty => rfl
  | rejected reason => rfl

theorem missingReport_frame (i : Nat) (s : State) : ∃ units eval,
    missingReport i s = { s with fleet := { s.fleet with units := units }, eval := eval } := by
  by_cases h : (unitOf s i).state = .probing ∨ (unitOf s i).state = .ready
  · rw [missingReport_counted h, withReport_frame]
    exact ⟨_, _, rfl⟩
  · rw [not_or] at h
    rw [missingReport_still h.1 h.2]
    exact ⟨_, _, rfl⟩

theorem unitOf_missingReport {s : State} (rising : Ascending s.fleet.units) (i k : Nat) :
    unitOf (missingReport i s) k = if k = i then afterMiss s.fleet.lostLimit (unitOf s i) else unitOf s k := by
  by_cases h : (unitOf s i).state = .probing ∨ (unitOf s i).state = .ready
  · rw [missingReport_counted h, unitOf_withReport rising]
  · rw [not_or] at h
    rw [missingReport_still h.1 h.2, afterMiss_still h.1 h.2]
    split_ifs with same
    · rw [same]
    · rfl

/-- A missing report marks the entries with a record on the unit when it takes a contributing one to LOST. -/
theorem marked_missingReport (i : Nat) (s : State) : Marked s (missingReport i s)
    (fun n _ => (contributing s i = true ∧ (afterMiss s.fleet.lostLimit (unitOf s i)).state = .lost) ∧
      ∃ r ∈ s.shares, r.entry = n ∧ r.unit = i)
    (fun k => contributing s i && decide ((afterMiss s.fleet.lostLimit (unitOf s i)).state = .lost) && k == i) := by
  by_cases h : (unitOf s i).state = .probing ∨ (unitOf s i).state = .ready
  · rw [missingReport_counted h]
    exact (marked_withReport ..).congr (fun n e => by simp) (fun k => by simp)
  · rw [not_or] at h
    have idle : contributing s i = false := by simp [contributing, h.2]
    rw [missingReport_still h.1 h.2]
    exact (Marked.still rfl rfl rfl).congr (fun n e => by simp [idle]) (fun k => by simp [idle])

/-! ### A good report (R14) -/

/-- A good report makes a PROBING unit READY at its second in a row. -/
def becomesReady (u : UnitRec) : Bool := decide (u.state = .probing) && decide (u.run ≠ 0)

theorem contributing_setUnit {s : State} (rising : Ascending s.fleet.units) (i : Nat) (v : UnitRec) :
    contributing (setUnit i v s) i = (decide (v.state = .ready) && onRunningChannel s i && !v.excluded) := by
  unfold contributing
  rw [unitOf_setUnit rising, if_pos rfl]
  rfl

theorem goodReport_eq {i : Nat} {s : State} (rising : Ascending s.fleet.units) (known : Reporting (unitOf s i))
    (bits : Nat) :
    goodReport i bits s = withReport i (afterGood (onRunningChannel s i) bits (unitOf s i))
      (becomesReady (unitOf s i) && (onRunningChannel s i && !(unitOf s i).excluded))
      (becomesReady (unitOf s i) && ((unitOf s i).owesEvent && onRunningChannel s i)) s := by
  unfold goodReport withReport contributionEvent
  dsimp only
  rcases known with h | h | h
  · rw [h]
    dsimp only
    by_cases first : (unitOf s i).run = 0
    · simp [becomesReady, afterGood, h, first]
    · rw [contributing_setUnit rising]
      simp [becomesReady, afterGood, h, first]
  · rw [h]
    simp [becomesReady, afterGood, h]
  · rw [h]
    simp [becomesReady, afterGood, h]

/-! ### The report of one drop (R47) -/

/-- The report of a drop is good: present, with the bytes of the unit's REPORTED widths. -/
def GoodDrop (u : UnitRec) (x : DropSection) : Prop :=
  x.present = true ∧ x.bytes.length = (reportedWidth u.catalogue + 7) / 8

section
variable {k : Nat} {s : State} {p : Nat × DropSection}

theorem dropReport_unknown (h : ¬Reporting (unitOf s (512 * k + p.1))) : dropReport k s p = s := by
  unfold dropReport
  rw [unitIndex_eq]
  exact if_neg h

theorem dropReport_good (known : Reporting (unitOf s (512 * k + p.1)))
    (good : GoodDrop (unitOf s (512 * k + p.1)) p.2) : dropReport k s p = reportUnit (512 * k + p.1)
      (goodReport (512 * k + p.1) (natOfBytes p.2.bytes % 2 ^ reportedWidth (unitOf s (512 * k + p.1)).catalogue) s) := by
  unfold dropReport
  rw [unitIndex_eq]
  exact (if_pos known).trans (if_pos good)

theorem dropReport_missing (known : Reporting (unitOf s (512 * k + p.1)))
    (bad : ¬GoodDrop (unitOf s (512 * k + p.1)) p.2) : dropReport k s p = missingReport (512 * k + p.1) s := by
  unfold dropReport
  rw [unitIndex_eq]
  exact (if_pos known).trans (if_neg bad)

end

theorem reportUnit_track (i : Nat) (s : State) :
    reportUnit i s = { s with track := { s.track with reported := setInsert s.track.reported i } } := rfl

/-- The report of a drop changes its unit, the marks of its event, and the units that reported. -/
theorem dropReport_frame {k : Nat} {s : State} (rising : Ascending s.fleet.units) (p : Nat × DropSection) :
    ∃ units eval reported, dropReport k s p = { s with
      fleet := { s.fleet with units := units }, eval := eval, track := { s.track with reported := reported } } := by
  by_cases known : Reporting (unitOf s (512 * k + p.1))
  · by_cases good : GoodDrop (unitOf s (512 * k + p.1)) p.2
    · rw [dropReport_good known good, goodReport_eq rising known, withReport_frame]
      exact ⟨_, _, _, rfl⟩
    · obtain ⟨units, eval, e⟩ := missingReport_frame (512 * k + p.1) s
      rw [dropReport_missing known good, e]
      exact ⟨_, _, _, rfl⟩
  · rw [dropReport_unknown known]
    exact ⟨_, _, _, rfl⟩

/-- A unit's exclusion, owed until it would contribute, comes up with this report (log 35). -/
def LateEvent (s t : State) (i : Nat) : Prop :=
  (unitOf s i).state ≠ .ready ∧ (unitOf t i).state = .ready ∧ (unitOf s i).excluded = true ∧
    (unitOf s i).owesEvent = true ∧ onRunningChannel s i = true

/-- What a report's event leaves: the marks it makes and whether the running job learns of it. -/
structure ReportEvents (s t : State) (i : Nat) : Prop where
  marks : MarksOnly s t
  told : LateEvent s t i ∨ (contributing s i = true ∧ contributing t i = false) → Disturbs s t (fun j => j == i)
  quiet : ¬LateEvent s t i → contributing s i = false ∨ contributing t i = true → t.eval.job = s.eval.job
  marked : NewlyMarked s t (fun n e =>
    (contributing s i = false ∧ contributing t i = true ∧ e.uncovered ≠ 0) ∨
    (LateEvent s t i ∧ ∃ r ∈ s.shares, r.entry = n ∧ r.unit = i) ∨
    (contributing s i = true ∧ contributing t i = false ∧ ∃ r ∈ s.shares, r.entry = n ∧ r.unit = i))

theorem reportEvents_withReport {i : Nat} {v : UnitRec} {gained lost : Bool} {s t : State}
    (h : t = withReport i v gained lost s)
    (gains : gained = true ↔ contributing s i = false ∧ contributing t i = true)
    (loses : (!gained && lost) = true ↔ LateEvent s t i ∨ (contributing s i = true ∧ contributing t i = false)) :
    ReportEvents s t i := by
  have events := marked_withReport i v gained lost s
  rw [← h] at events
  refine ⟨events.only, fun told => ?_, fun notLate kept => ?_, fun n => ?_⟩
  · have disturbs := events.disturbs
    rw [loses.2 told] at disturbs
    simpa using disturbs
  · have silent : (!gained && lost) = false := by
      rw [Bool.eq_false_iff, Ne, loses]
      rintro (late | ⟨before, after⟩)
      · exact notLate late
      · rcases kept with kept | kept
        · rw [kept] at before; cases before
        · rw [kept] at after; cases after
    refine job_of_disturbs_nothing ?_
    have disturbs := events.disturbs
    rw [silent] at disturbs
    simpa using disturbs
  · refine (events.marked n).trans (or_congr_right (exists_congr fun e => and_congr_right fun _ => and_congr_right fun _ => ?_))
    rw [Bool.and_eq_true, Bool.not_eq_true'] at loses
    rw [gains, ← and_assoc, loses, or_and_right, and_assoc, and_assoc]

theorem reportEvents_missing {i : Nat} {s : State} (rising : Ascending s.fleet.units) :
    ReportEvents s (missingReport i s) i := by
  by_cases counted : (unitOf s i).state = .probing ∨ (unitOf s i).state = .ready
  · have report := missingReport_counted counted
    have after := contributing_withReport rising i (afterMiss s.fleet.lostLimit (unitOf s i)) false
      (contributing s i && decide ((afterMiss s.fleet.lostLimit (unitOf s i)).state = .lost)) i
    have unit := unitOf_missingReport rising i i
    rw [← report, if_pos rfl] at after
    rw [if_pos rfl] at unit
    refine reportEvents_withReport report ?_ ?_
    · rw [after]
      rcases counted with h | h
      · simp [contributing, afterMiss, h]
        split_ifs <;> simp
      · by_cases last : (unitOf s i).miss + 1 = s.fleet.lostLimit <;> simp [contributing, afterMiss, h, last]
    · rw [after, LateEvent, unit]
      rcases counted with h | h
      · simp [contributing, afterMiss, h]
        split_ifs <;> simp
      · by_cases last : (unitOf s i).miss + 1 = s.fleet.lostLimit <;> simp [contributing, afterMiss, h, last]
  · rw [not_or] at counted
    rw [missingReport_still counted.1 counted.2]
    have idle : contributing s i = false := by simp [contributing, counted.2]
    exact ⟨⟨rfl, rfl⟩, fun told => by simp [idle, LateEvent, counted.2] at told, fun _ _ => rfl,
      fun n => by simp [idle, LateEvent, counted.2]⟩

theorem reportEvents_good {i : Nat} {s : State} (rising : Ascending s.fleet.units) (known : Reporting (unitOf s i))
    (bits : Nat) : ReportEvents s (goodReport i bits s) i := by
  have report := goodReport_eq rising known bits
  have after := contributing_withReport rising i (afterGood (onRunningChannel s i) bits (unitOf s i))
    (becomesReady (unitOf s i) && (onRunningChannel s i && !(unitOf s i).excluded))
    (becomesReady (unitOf s i) && ((unitOf s i).owesEvent && onRunningChannel s i)) i
  have unit := unitOf_withReport rising i (afterGood (onRunningChannel s i) bits (unitOf s i))
    (becomesReady (unitOf s i) && (onRunningChannel s i && !(unitOf s i).excluded))
    (becomesReady (unitOf s i) && ((unitOf s i).owesEvent && onRunningChannel s i)) i
  rw [← report, if_pos rfl] at after unit
  refine reportEvents_withReport report ?_ ?_
  · rw [after]
    rcases known with h | h | h
    · by_cases first : (unitOf s i).run = 0 <;> simp [contributing, becomesReady, afterGood, h, first]
    · simp [contributing, becomesReady, afterGood, h]
    · simp [contributing, becomesReady, afterGood, h]
  · rw [after, LateEvent, unit]
    rcases known with h | h | h
    · by_cases first : (unitOf s i).run = 0
      · simp [contributing, becomesReady, afterGood, h, first]
      · simp [contributing, becomesReady, afterGood, h, first]
        intro _ on off
        rw [on] at off
        cases off
    · simp [contributing, becomesReady, afterGood, h]
    · simp [contributing, becomesReady, afterGood, h]

theorem reportEvents_dropReport {k : Nat} {s : State} (rising : Ascending s.fleet.units) (p : Nat × DropSection)
    (known : Reporting (unitOf s (512 * k + p.1))) : ReportEvents s (dropReport k s p) (512 * k + p.1) := by
  by_cases good : GoodDrop (unitOf s (512 * k + p.1)) p.2
  · obtain ⟨marks, told, quiet, marked⟩ := reportEvents_good rising known
      (natOfBytes p.2.bytes % 2 ^ reportedWidth (unitOf s (512 * k + p.1)).catalogue)
    rw [dropReport_good known good]
    exact ⟨marks, told, quiet, marked⟩
  · rw [dropReport_missing known good]
    exact reportEvents_missing rising

theorem unitOf_goodReport {i : Nat} {s : State} (rising : Ascending s.fleet.units) (known : Reporting (unitOf s i))
    (bits k : Nat) : unitOf (goodReport i bits s) k =
      if k = i then afterGood (onRunningChannel s i) bits (unitOf s i) else unitOf s k := by
  rw [goodReport_eq rising known, unitOf_withReport rising]

theorem track_goodReport {i : Nat} {s : State} (rising : Ascending s.fleet.units) (known : Reporting (unitOf s i))
    (bits : Nat) : (goodReport i bits s).track = s.track := by
  rw [goodReport_eq rising known, withReport_frame]
  rfl

end Sys2Proof.Machine

/-! PROOF. EXCHANGE answers and the re-arming ARM: what a failed and a good answer count, report, raise and end (R46 to
R50, R53). -/

namespace Sys2Proof.Machine

/-! ### Channel events one after another -/

/-- The channel's CHANNEL event was raised, or no CHANNEL notice differs. -/
def ChannelTold (s t : State) (k : Nat) : Prop :=
  ChannelStill s t ∨ (ChannelRaised s t k ∧ t.links.mapA = s.links.mapA ∧ t.links.mapB = s.links.mapB)

theorem ChannelTold.raised {s t u : State} {k : Nat} (h : ChannelTold s t k) (g : ChannelRaised t u k) :
    ChannelRaised s u k := by
  rcases h with still | ⟨raised, maps⟩
  · exact still.raised g
  · exact raised.again maps g

theorem ChannelTold.still {s t u : State} {k : Nat} (h : ChannelTold s t k) (g : ChannelStill t u) :
    ChannelTold s u k := by
  rcases h with still | ⟨raised, mapA, mapB⟩
  · exact .inl (still.trans g)
  · exact .inr ⟨raised.still g, g.1.trans mapA, g.2.1.trans mapB⟩

theorem channelTold_setSticky (c : Nat) (f : FaultSet) (s : State) : ChannelTold s (setSticky c f s) c := by
  by_cases same : f = (channelOf s c).sticky
  · rw [setSticky_same same]
    exact .inl (.refl s)
  · exact .inr ⟨setSticky_raised same, setSticky_maps c f s⟩

theorem ChannelsOnly.fleet {s t : State} (h : ChannelsOnly s t) : t.fleet = s.fleet := by
  obtain ⟨_, _, _, rfl⟩ := h
  rfl

theorem ChannelsOnly.round {s t : State} (h : ChannelsOnly s t) :
    t.ctl.round = s.ctl.round ∧ t.ctl.failedMask = s.ctl.failedMask := by
  obtain ⟨_, _, _, rfl⟩ := h
  exact ⟨rfl, rfl⟩

theorem ChannelsOnly.track {s t : State} (h : ChannelsOnly s t) : t.track = s.track := by
  obtain ⟨_, _, _, rfl⟩ := h
  rfl

theorem addFault_ne_none {o : ReplyOutcome} (bad : o ≠ .good) (f : FaultSet) : addFault f o ≠ FaultSet.none := by
  cases o with
  | good => exact absurd rfl bad
  | timeout | checkError | framing | extraData => simp [addFault, FaultSet.none]

theorem addFault_tooMany (f : FaultSet) (o : ReplyOutcome) : (addFault f o).tooMany = f.tooMany := by
  cases o <;> rfl

/-! ### The third failure in a row (R50) -/

theorem faultAtThree_below {k : Nat} {s : State} (h : ¬3 ≤ (channelOf s k).failures) : faultAtThree k s = s :=
  if_neg h

theorem faultAtThree_reached {k : Nat} {s : State} (h : 3 ≤ (channelOf s k).failures) :
    faultAtThree k s = faultChannel k (setSticky k { (channelOf s k).sticky with tooMany := true } s) :=
  if_pos h

theorem channelOf_faultAtThree {k : Nat} {s : State} (h : 3 ≤ (channelOf s k).failures) (j : Nat) :
    channelOf (faultAtThree k s) j = if j = k then
      afterFault { channelOf s k with sticky := { (channelOf s k).sticky with tooMany := true } } else channelOf s j := by
  rw [faultAtThree_reached h, channelOf_faulted (by simp [FaultSet.none])]

theorem channelsOnly_faultAtThree (k : Nat) (s : State) : ChannelsOnly s (faultAtThree k s) := by
  unfold faultAtThree
  split_ifs
  · exact (channelsOnly_setSticky ..).trans (channelsOnly_faultChannel ..)
  · exact .refl s

/-! ### The missing reports of a failed exchange (R48) -/

/-- Every unit of a list misses its report. -/
def missReports (is : List Nat) (s : State) : State := is.foldl (fun s i => missingReport i s) s

theorem missReports_frame (is : List Nat) (s : State) : ∃ units eval,
    missReports is s = { s with fleet := { s.fleet with units := units }, eval := eval } := by
  induction is generalizing s with
  | nil => exact ⟨_, _, rfl⟩
  | cons i is ih =>
    obtain ⟨_, _, first⟩ := missingReport_frame i s
    obtain ⟨_, _, rest⟩ := ih (missingReport i s)
    rw [first] at rest
    exact ⟨_, _, (congrArg (missReports is) first).trans rest⟩

theorem unitOf_missReports (is : List Nat) {s : State} (listed : Listed UnitRec.reset s.fleet.units) (j : Nat) :
    unitOf (missReports is s) j =
      is.foldl (fun u i => if i = j then afterMiss s.fleet.lostLimit u else u) (unitOf s j) := by
  induction is generalizing s with
  | nil => rfl
  | cons i is ih =>
    have limit : (missingReport i s).fleet.lostLimit = s.fleet.lostLimit := (inner_missingReport i s).lostLimit
    have one := unitOf_missingReport listed.1 i j
    show unitOf (missReports is (missingReport i s)) j = _
    rw [ih ((inner_missingReport i s).units listed), limit, one, List.foldl_cons]
    congr 1
    by_cases same : i = j
    · rw [if_pos same, if_pos same.symm, same]
    · rw [if_neg same, if_neg (Ne.symm same)]

/-- A unit that has become LOST stays so at further misses. -/
theorem afterMiss_fold_lost {limit : Nat} {u : UnitRec} (h : u.state = .lost) (is : List Nat) (j : Nat) :
    (is.foldl (fun u i => if i = j then afterMiss limit u else u) u).state = .lost := by
  have fixed : afterMiss limit u = u := afterMiss_still (by simp [h]) (by simp [h])
  have fold : is.foldl (fun u i => if i = j then afterMiss limit u else u) u = u := by
    induction is with
    | nil => rfl
    | cons i is ih => rw [List.foldl_cons, fixed, ite_self, ih]
  rw [fold, h]

theorem afterMiss_state (limit : Nat) {u : UnitRec} (h : u.state = .ready) :
    (afterMiss limit u).state = .ready ∨ (afterMiss limit u).state = .lost := by
  by_cases last : u.miss + 1 = limit <;> simp [afterMiss, h, last]

theorem ready_of_afterMiss {limit : Nat} {u : UnitRec} (h : (afterMiss limit u).state = .ready) : u.state = .ready := by
  by_contra no
  by_cases probing : u.state = .probing
  · simp only [afterMiss, probing] at h
    simp at h
    split_ifs at h
  · rw [afterMiss_still probing no] at h
    exact no h

theorem afterMiss_excluded (limit : Nat) (u : UnitRec) : (afterMiss limit u).excluded = u.excluded := by
  unfold afterMiss
  split_ifs <;> rfl

theorem contributing_missingReport {s : State} (rising : Ascending s.fleet.units) (i j : Nat) :
    contributing (missingReport i s) j = true ↔
      contributing s j = true ∧ (j = i → (afterMiss s.fleet.lostLimit (unitOf s i)).state = .ready) := by
  obtain ⟨_, _, frame⟩ := missingReport_frame i s
  have channel : onRunningChannel (missingReport i s) j = onRunningChannel s j := by
    unfold onRunningChannel
    rw [channelOf_congr (s := s) (by rw [frame])]
  unfold contributing
  rw [channel, unitOf_missingReport rising]
  by_cases same : j = i
  · subst same
    simp only [if_true, afterMiss_excluded, Bool.and_eq_true, decide_eq_true_eq, forall_const]
    exact ⟨fun ⟨⟨ready, on⟩, within⟩ => ⟨⟨⟨ready_of_afterMiss ready, on⟩, within⟩, ready⟩,
      fun ⟨⟨⟨_, on⟩, within⟩, ready⟩ => ⟨⟨ready, on⟩, within⟩⟩
  · simp [same]

/-- The units that lose their contribution mark the entries with a record on them. -/
theorem marked_missReports (is : List Nat) {s : State} (listed : Listed UnitRec.reset s.fleet.units) :
    ∃ d, Marked s (missReports is s) (fun n _ => ∃ r ∈ s.shares, r.entry = n ∧
      contributing s r.unit = true ∧ (unitOf (missReports is s) r.unit).state = .lost) d := by
  induction is generalizing s with
  | nil =>
    refine ⟨_, (Marked.still rfl rfl rfl).congr (fun n e => ⟨False.elim, ?_⟩) fun i => rfl⟩
    rintro ⟨r, _, _, contributes, lost⟩
    have lost : (unitOf s r.unit).state = .lost := lost
    rw [ready_of_contributing contributes] at lost
    cases lost
  | cons i is ih =>
    have first := marked_missingReport i s
    have listed' := (inner_missingReport i s).units listed
    obtain ⟨d, rest⟩ := ih listed'
    have final : missReports (i :: is) s = missReports is (missingReport i s) := rfl
    refine ⟨_, (first.trans rest).congr (fun n e => ?_) fun k => rfl⟩
    rw [first.shares, final]
    constructor
    · rintro (⟨⟨contributes, lost⟩, r, mem, own, rfl⟩ | ⟨r, mem, own, contributes, lost⟩)
      · refine ⟨r, mem, own, contributes, ?_⟩
        rw [unitOf_missReports is listed', unitOf_missingReport listed.1, if_pos rfl]
        exact afterMiss_fold_lost lost ..
      · exact ⟨r, mem, own, ((contributing_missingReport listed.1 i r.unit).1 contributes).1, lost⟩
    · rintro ⟨r, mem, own, contributes, lost⟩
      by_cases now : contributing (missingReport i s) r.unit = true
      · exact .inr ⟨r, mem, own, now, lost⟩
      · rw [contributing_missingReport listed.1] at now
        push Not at now
        obtain ⟨same, gone⟩ := now contributes
        rcases afterMiss_state s.fleet.lostLimit (ready_of_contributing (same ▸ contributes)) with still | lost
        · exact absurd still gone
        · exact .inl ⟨⟨same ▸ contributes, lost⟩, r, mem, own, same⟩

/-! ### A failed exchange (R48, R50) -/

/-- The roster's units as the table numbers them. -/
def rosterUnits (k : Nat) (s : State) : List Nat := (channelOf s k).roster.map fun d => 512 * k + d

/-- A failed answer's fault, its missing reports and its count, before the round and FAULTED. -/
def failureCounted (k : Nat) (o : ReplyOutcome) (s : State) : State :=
  let s := missReports (rosterUnits k s) (setSticky k (addFault (channelOf s k).sticky o) s)
  setChannel k { channelOf s k with failures := (channelOf s k).failures + 1 } s

theorem failedExchange_eq {k : Nat} {o : ReplyOutcome} (bad : o ≠ .good) (s : State) :
    failedExchange k o s = faultAtThree k (failOutstanding k (failureCounted k o s)) := by
  have roster : (channelOf (setSticky k (addFault (channelOf s k).sticky o) s) k).roster = (channelOf s k).roster := by
    rw [channelOf_setSticky (addFault_ne_none bad _), if_pos rfl]
  unfold failedExchange failureCounted missReports rosterUnits
  dsimp only
  rw [roster, List.foldl_map]
  simp only [unitIndex_eq]

section
variable {k : Nat} {o : ReplyOutcome} (bad : o ≠ .good) (s : State)
include bad

theorem channelOf_failureCounted (j : Nat) : channelOf (failureCounted k o s) j = if j = k then
      { channelOf s k with
        sticky := addFault (channelOf s k).sticky o, failures := (channelOf s k).failures + 1 } else channelOf s j := by
  obtain ⟨_, _, frame⟩ := missReports_frame (rosterUnits k s) (setSticky k (addFault (channelOf s k).sticky o) s)
  have missed (j : Nat) : channelOf (missReports (rosterUnits k s) (setSticky k (addFault (channelOf s k).sticky o) s)) j =
      if j = k then { channelOf s k with sticky := addFault (channelOf s k).sticky o } else channelOf s j := by
    rw [channelOf_congr (s := setSticky k (addFault (channelOf s k).sticky o) s) (by rw [frame]),
      channelOf_setSticky (addFault_ne_none bad _)]
  unfold failureCounted
  dsimp only
  rw [missed, if_pos rfl, channelOf_setChannel_listed (listed_of_sticky (addFault_ne_none bad _)), missed]
  split_ifs <;> rfl

end

theorem failureCounted_frame (k : Nat) (o : ReplyOutcome) (s : State) : ∃ units,
    (failureCounted k o s).fleet = { s.fleet with units := units } ∧
    (failureCounted k o s).ctl.round = s.ctl.round ∧ (failureCounted k o s).ctl.failedMask = s.ctl.failedMask ∧
    (failureCounted k o s).links = (setSticky k (addFault (channelOf s k).sticky o) s).links := by
  obtain ⟨units, _, frame⟩ := missReports_frame (rosterUnits k s) (setSticky k (addFault (channelOf s k).sticky o) s)
  have sticky := channelsOnly_setSticky k (addFault (channelOf s k).sticky o) s
  unfold failureCounted
  rw [frame]
  refine ⟨units, ?_, sticky.round.1, sticky.round.2, rfl⟩
  show { (setSticky k (addFault (channelOf s k).sticky o) s).fleet with units := units } = _
  rw [sticky.fleet]

theorem unitOf_failureCounted {s : State} (listed : Listed UnitRec.reset s.fleet.units) (k : Nat) (o : ReplyOutcome)
    (i : Nat) : unitOf (failureCounted k o s) i = (channelOf s k).roster.foldl
      (fun u d => if 512 * k + d = i then afterMiss s.fleet.lostLimit u else u) (unitOf s i) := by
  have fleet := (channelsOnly_setSticky k (addFault (channelOf s k).sticky o) s).fleet
  have missed := unitOf_missReports (rosterUnits k s) (s := setSticky k (addFault (channelOf s k).sticky o) s)
    (by rw [fleet]; exact listed) i
  rw [unitOf_congr fleet, fleet, rosterUnits, List.foldl_map] at missed
  exact missed

/-- A unit contributes as its record and its channel's state say. -/
theorem contributing_congr {s t : State} (fleet : t.fleet = s.fleet)
    (state : ∀ c, (channelOf t c).state = (channelOf s c).state) (i : Nat) : contributing t i = contributing s i := by
  unfold contributing onRunningChannel
  rw [unitOf_congr fleet, state]

theorem state_of_setSticky {k : Nat} {f : FaultSet} (some : f ≠ FaultSet.none) (s : State) (c : Nat) :
    (channelOf (setSticky k f s) c).state = (channelOf s c).state := by
  rw [channelOf_setSticky some]
  split_ifs with h
  · rw [h]
  · rfl

theorem marked_failureCounted {s : State} (listed : Listed UnitRec.reset s.fleet.units) (k : Nat) {o : ReplyOutcome}
    (bad : o ≠ .good) : ∃ d, Marked s (failureCounted k o s) (fun n _ => ∃ r ∈ s.shares, r.entry = n ∧
      contributing s r.unit = true ∧ (unitOf (failureCounted k o s) r.unit).state = .lost) d := by
  have some := addFault_ne_none bad (channelOf s k).sticky
  have sticky := marked_setSticky k (addFault (channelOf s k).sticky o) s
  have fleet := (channelsOnly_setSticky k (addFault (channelOf s k).sticky o) s).fleet
  obtain ⟨d, missed⟩ := marked_missReports (rosterUnits k s) (s := setSticky k (addFault (channelOf s k).sticky o) s)
    (by rw [fleet]; exact listed)
  have written : Marked (missReports (rosterUnits k s) (setSticky k (addFault (channelOf s k).sticky o) s))
      (failureCounted k o s) (fun _ _ => False) (fun _ => false) := marked_setChannel ..
  refine ⟨_, ((sticky.trans missed).trans written).congr (fun n e => ?_) fun i => rfl⟩
  rw [sticky.shares, false_or, or_false]
  refine exists_congr fun r => and_congr_right fun _ => and_congr_right fun _ => ?_
  rw [contributing_congr fleet (state_of_setSticky some s)]
  rfl

/-- Clauses of a failed exchange: the channel, the round, the units and the marks (R48, R50). -/
theorem failedExchange_channels {k : Nat} {o : ReplyOutcome} (bad : o ≠ .good) (s : State) (j : Nat) :
    channelOf (failedExchange k o s) j = if j = k then
      (if 3 ≤ (channelOf s k).failures + 1 then
        afterFault { channelOf s k with
          failures := (channelOf s k).failures + 1
          sticky := { addFault (channelOf s k).sticky o with tooMany := true } }
      else { channelOf s k with
        sticky := addFault (channelOf s k).sticky o, failures := (channelOf s k).failures + 1 }) else channelOf s j := by
  have counted (j : Nat) : channelOf (failOutstanding k (failureCounted k o s)) j = if j = k then
      { channelOf s k with
        sticky := addFault (channelOf s k).sticky o, failures := (channelOf s k).failures + 1 } else channelOf s j := by
    rw [(roundSide_failOutstanding ..).channelOf, channelOf_failureCounted bad]
  have own := (counted k).trans (if_pos rfl)
  rw [failedExchange_eq bad]
  by_cases three : 3 ≤ (channelOf s k).failures + 1
  · rw [channelOf_faultAtThree (by rw [own]; exact three), counted, counted, if_pos rfl, if_pos three]
    split_ifs <;> rfl
  · rw [faultAtThree_below (by rw [own]; exact three), counted, if_neg three]

theorem failOutstanding_round (k : Nat) (s : State) :
    (∀ r, (failOutstanding k s).ctl.round = some r → k ∉ r.outstanding ∧ k ∈ r.failed) ∧
    (∀ r, s.ctl.round = some r → r.outstanding = [k] →
      (failOutstanding k s).ctl.round = none ∧ k ∈ (failOutstanding k s).ctl.failedMask) := by
  rcases failOutstanding_cases k s with ⟨idle, e⟩ | ⟨q, round, e⟩
  · rw [e, idle]
    exact ⟨fun r h => (nomatch h), fun r h => nomatch h⟩
  · have failed : k ∈ setInsert q.failed k := (mem_setInsert ..).2 (.inl rfl)
    by_cases last : ∀ j ∈ q.outstanding, j = k
    · have done := leaveOutstanding_last (s := { s with ctl := { s.ctl with
        round := some { q with failed := setInsert q.failed k } } }) (r := { q with failed := setInsert q.failed k })
        rfl last
      rw [e, done]
      exact ⟨fun r h => (nomatch h), fun r h only => ⟨rfl, failed⟩⟩
    · push Not at last
      have left := leaveOutstanding_others (s := { s with ctl := { s.ctl with
        round := some { q with failed := setInsert q.failed k } } }) (r := { q with failed := setInsert q.failed k })
        rfl last
      rw [e, left]
      refine ⟨fun r h => ?_, fun r h only => ?_⟩
      · obtain rfl := Option.some.inj h
        exact ⟨by simp, failed⟩
      · obtain rfl := Option.some.inj (round.symm.trans h)
        obtain ⟨j, hj, ne⟩ := last
        rw [only] at hj
        exact absurd (List.mem_singleton.1 hj) ne

theorem failedExchange_round {k : Nat} {o : ReplyOutcome} (bad : o ≠ .good) (s : State) :
    (∀ r, (failedExchange k o s).ctl.round = some r → k ∉ r.outstanding ∧ k ∈ r.failed) ∧
    (∀ r, s.ctl.round = some r → r.outstanding = [k] →
      (failedExchange k o s).ctl.round = none ∧ k ∈ (failedExchange k o s).ctl.failedMask) := by
  obtain ⟨_, _, round, _⟩ := failureCounted_frame k o s
  have outstanding := failOutstanding_round k (failureCounted k o s)
  rw [round] at outstanding
  obtain ⟨same, mask⟩ := (channelsOnly_faultAtThree k (failOutstanding k (failureCounted k o s))).round
  rw [failedExchange_eq bad, same, mask]
  exact outstanding

theorem unitOf_failedExchange {k : Nat} {o : ReplyOutcome} (bad : o ≠ .good) {s : State}
    (listed : Listed UnitRec.reset s.fleet.units) (i : Nat) : unitOf (failedExchange k o s) i =
      (channelOf s k).roster.foldl
        (fun u d => if 512 * k + d = i then afterMiss s.fleet.lostLimit u else u) (unitOf s i) := by
  rw [failedExchange_eq bad, unitOf_congr (channelsOnly_faultAtThree ..).fleet,
    unitOf_congr (roundSide_failOutstanding ..).fleet, unitOf_failureCounted listed]

theorem marked_failedExchange {k : Nat} {o : ReplyOutcome} (bad : o ≠ .good) {s : State}
    (listed : Listed UnitRec.reset s.fleet.units) : NewlyMarked s (failedExchange k o s)
      (fun n _ => ∃ r ∈ s.shares, r.entry = n ∧
        ((contributing s r.unit = true ∧ (unitOf (failedExchange k o s) r.unit).state = .lost) ∨
          (3 ≤ (channelOf s k).failures + 1 ∧ channelOfUnit r.unit = k))) := by
  obtain ⟨d, counted⟩ := marked_failureCounted listed k bad
  have side := roundSide_failOutstanding k (failureCounted k o s)
  have own : channelOf (failOutstanding k (failureCounted k o s)) k = _ :=
    (side.channelOf k).trans ((channelOf_failureCounted bad s k).trans (if_pos rfl))
  have lost (i : Nat) : unitOf (failedExchange k o s) i = unitOf (failureCounted k o s) i := by
    rw [unitOf_failedExchange bad listed, unitOf_failureCounted listed]
  have before := counted.trans side.marked
  by_cases three : 3 ≤ (channelOf s k).failures + 1
  · have fault := marked_faulted k { (channelOf (failOutstanding k (failureCounted k o s)) k).sticky with tooMany := true }
      (failOutstanding k (failureCounted k o s))
    rw [← faultAtThree_reached (by rw [own]; exact three), ← failedExchange_eq bad] at fault
    refine ((before.trans fault).congr (fun n e => ?_) fun i => rfl).marked
    rw [side.shares, counted.shares, or_false, ← exists_or]
    refine exists_congr fun r => ?_
    rw [lost]
    simp only [three, true_and]
    tauto
  · have below := faultAtThree_below (k := k) (s := failOutstanding k (failureCounted k o s))
      (by rw [own]; exact three)
    rw [failedExchange_eq bad] at lost ⊢
    rw [below] at lost ⊢
    refine (before.congr (fun n e => ?_) fun i => rfl).marked
    simp only [three, false_and, or_false, lost]

theorem failedExchange_told {k : Nat} {o : ReplyOutcome} (bad : o ≠ .good) (s : State) :
    ((addFault (channelOf s k).sticky o ≠ (channelOf s k).sticky ∨ 3 ≤ (channelOf s k).failures + 1) →
      ChannelRaised s (failedExchange k o s) k) ∧
    (addFault (channelOf s k).sticky o = (channelOf s k).sticky → ¬3 ≤ (channelOf s k).failures + 1 →
      ChannelStill s (failedExchange k o s)) := by
  obtain ⟨_, _, _, _, links⟩ := failureCounted_frame k o s
  have side := roundSide_failOutstanding k (failureCounted k o s)
  have own : channelOf (failOutstanding k (failureCounted k o s)) k = _ :=
    (side.channelOf k).trans ((channelOf_failureCounted bad s k).trans (if_pos rfl))
  have after : ChannelStill (setSticky k (addFault (channelOf s k).sticky o) s)
      (failOutstanding k (failureCounted k o s)) := (ChannelStill.of_links links).trans side.channel
  rw [failedExchange_eq bad]
  by_cases three : 3 ≤ (channelOf s k).failures + 1
  · refine ⟨fun _ => ?_, fun _ below => absurd three below⟩
    rw [faultAtThree_reached (by rw [own]; exact three)]
    exact ((channelTold_setSticky ..).still after).raised (faulted_raised ..)
  · rw [faultAtThree_below (by rw [own]; exact three)]
    refine ⟨fun h => (setSticky_raised (h.resolve_right three)).still after, fun same _ => ?_⟩
    rwa [setSticky_same same] at after

end Sys2Proof.Machine

/-! PROOF. A good exchange, the re-arming ARM, and what both leave of the round (R46, R47, R49, R53). -/

namespace Sys2Proof.Machine

/-! ### The reports of a good exchange -/

/-- The reports of a roster's drops, one after another. -/
def takeReports (k : Nat) (ps : List (Nat × DropSection)) (s : State) : State := ps.foldl (dropReport k) s

theorem takeReports_frame (k : Nat) (ps : List (Nat × DropSection)) {s : State}
    (listed : Listed UnitRec.reset s.fleet.units) : ∃ units eval reported, takeReports k ps s = { s with
      fleet := { s.fleet with units := units }, eval := eval, track := { s.track with reported := reported } } := by
  induction ps generalizing s with
  | nil => exact ⟨_, _, _, rfl⟩
  | cons p ps ih =>
    obtain ⟨_, _, _, first⟩ := dropReport_frame (k := k) listed.1 p
    obtain ⟨_, _, _, rest⟩ := ih ((inner_dropReport k s p).units listed)
    rw [first] at rest
    exact ⟨_, _, _, (congrArg (takeReports k ps) first).trans rest⟩

/-! ### The fault indication (R46) -/

theorem copyIndication_same {k : Nat} {b : Bool} {s : State} (h : (channelOf s k).fault = b) :
    copyIndication k b s = s :=
  if_pos h

theorem copyIndication_new {k : Nat} {b : Bool} {s : State} (h : (channelOf s k).fault ≠ b) :
    copyIndication k b s = raiseChannel k (setChannel k { channelOf s k with fault := b } s) :=
  if_neg h

theorem copyIndication_frame (k : Nat) (b : Bool) (s : State) : ∃ channels links,
    copyIndication k b s = { s with ctl := { s.ctl with channels := channels }, links := links } := by
  by_cases same : (channelOf s k).fault = b
  · rw [copyIndication_same same]
    exact ⟨_, _, rfl⟩
  · rw [copyIndication_new same, raiseChannel_frame]
    exact ⟨_, _, rfl⟩

theorem channelOf_copyIndication {s : State} (rising : Ascending s.ctl.channels) (k : Nat) (b : Bool) (j : Nat) :
    channelOf (copyIndication k b s) j = if j = k then { channelOf s k with fault := b } else channelOf s j := by
  by_cases same : (channelOf s k).fault = b
  · rw [copyIndication_same same]
    split_ifs with h
    · rw [h, ← same]
    · rfl
  · rw [copyIndication_new same, channelOf_raiseChannel, channelOf_setChannel rising]

theorem channelTold_copyIndication (k : Nat) (b : Bool) (s : State) : ChannelTold s (copyIndication k b s) k := by
  by_cases same : (channelOf s k).fault = b
  · rw [copyIndication_same same]
    exact .inl (.refl s)
  · rw [copyIndication_new same]
    exact .inr ⟨channelRaised_set .., raiseChannel_maps ..⟩

/-! ### The channel's part in the round -/

/-- What leaving the outstanding ones makes of the round. -/
theorem leaveOutstanding_round {s : State} {r : Round} (h : s.ctl.round = some r) (k : Nat) :
    ((∀ j ∈ r.outstanding, j = k) →
      (leaveOutstanding k s).ctl.round = none ∧ (leaveOutstanding k s).ctl.failedMask = r.failed) ∧
    ((∃ j ∈ r.outstanding, j ≠ k) → (leaveOutstanding k s).ctl.round =
      some { r with outstanding := r.outstanding.filter fun j => j ≠ k }) := by
  refine ⟨fun last => ?_, fun others => ?_⟩
  · rw [leaveOutstanding_last h last]
    exact ⟨rfl, rfl⟩
  · rw [leaveOutstanding_others h others]

/-- A good exchange that no watchdog ended. -/
theorem goodExchange_calm {k : Nat} {c : List Byte} {s : State} {xs : List DropSection} {rest : List Byte}
    (read : readSections (channelOf s k).roster.length (c.drop 1) = some (xs, rest)) (calm : readBit c 0 0 = false) :
    goodExchange k c s = leaveOutstanding k (setChannel k
      { channelOf (takeReports k ((channelOf s k).roster.zip xs) (copyIndication k (readBit c 0 1) s)) k with
        failures := 0 } (takeReports k ((channelOf s k).roster.zip xs) (copyIndication k (readBit c 0 1) s))) := by
  unfold goodExchange
  dsimp only
  rw [read]
  exact if_neg (by simp [calm])

/-- A good exchange whose watchdog has bitten (R49). -/
theorem goodExchange_bitten {k : Nat} {c : List Byte} {s : State} {xs : List DropSection} {rest : List Byte}
    (read : readSections (channelOf s k).roster.length (c.drop 1) = some (xs, rest)) (bitten : readBit c 0 0 = true) :
    goodExchange k c s = faultChannel k (setSticky k
      { (channelOf (leaveOutstanding k (takeReports k ((channelOf s k).roster.zip xs)
        (copyIndication k (readBit c 0 1) s))) k).sticky with watchdogBite := true }
      (leaveOutstanding k (takeReports k ((channelOf s k).roster.zip xs) (copyIndication k (readBit c 0 1) s)))) := by
  unfold goodExchange
  dsimp only
  rw [read]
  exact if_pos bitten

/-! ### The re-arming ARM (R53) -/

theorem rearmOutcome_good (k : Nat) (s : State) :
    rearmOutcome k .good s = setChannel k { channelOf s k with failures := 0 } s :=
  if_pos rfl

theorem rearmOutcome_bad {k : Nat} {o : ReplyOutcome} (bad : o ≠ .good) (s : State) : rearmOutcome k o s =
    if (channelOf (faultAtThree k (countFailure k o s)) k).state = .faulted then
      leaveOutstanding k (faultAtThree k (countFailure k o s)) else faultAtThree k (countFailure k o s) :=
  if_neg bad

theorem channelOf_countFailure {k : Nat} {o : ReplyOutcome} (bad : o ≠ .good) (s : State) (j : Nat) :
    channelOf (countFailure k o s) j = if j = k then { channelOf s k with
      failures := (channelOf s k).failures + 1, sticky := addFault (channelOf s k).sticky o } else channelOf s j := by
  have written := channelOf_setSticky (c := k) (addFault_ne_none bad (channelOf s k).sticky) s
  unfold countFailure
  dsimp only
  rw [written, if_pos rfl, channelOf_setChannel_listed (listed_of_sticky (addFault_ne_none bad _)), written]
  split_ifs <;> rfl

theorem channelsOnly_countFailure (k : Nat) (o : ReplyOutcome) (s : State) : ChannelsOnly s (countFailure k o s) :=
  (channelsOnly_setSticky ..).trans (channelsOnly_setChannel ..)

theorem marked_countFailure (k : Nat) (o : ReplyOutcome) (s : State) :
    Marked s (countFailure k o s) (fun _ _ => False) (fun _ => false) :=
  ((marked_setSticky k (addFault (channelOf s k).sticky o) s).trans (marked_setChannel ..)).congr
    (fun n e => by simp) (fun i => by simp)

theorem countFailure_links (k : Nat) (o : ReplyOutcome) (s : State) :
    (countFailure k o s).links = (setSticky k (addFault (channelOf s k).sticky o) s).links := rfl

theorem setSticky_eval (k : Nat) (f : FaultSet) (s : State) : (setSticky k f s).eval = s.eval := by
  unfold setSticky
  split_ifs
  · rfl
  · rw [raiseChannel_frame]
    rfl

/-- The reports of an answer after its fault indication. -/
def reportsTaken (k : Nat) (c : List Byte) (xs : List DropSection) (s : State) : State :=
  takeReports k ((channelOf s k).roster.zip xs) (copyIndication k (readBit c 0 1) s)

section
variable {k : Nat} {c : List Byte} {xs : List DropSection} {s : State} (tables : TablesCanonical s)
include tables

theorem reportsTaken_frame : ∃ channels links units eval reported, reportsTaken k c xs s = { s with
    ctl := { s.ctl with channels := channels }, links := links, fleet := { s.fleet with units := units }, eval := eval,
    track := { s.track with reported := reported } } := by
  obtain ⟨channels, links, copied⟩ := copyIndication_frame k (readBit c 0 1) s
  obtain ⟨units, eval, reported, taken⟩ := takeReports_frame k ((channelOf s k).roster.zip xs)
    (s := copyIndication k (readBit c 0 1) s) (by rw [copied]; exact tables.1)
  unfold reportsTaken
  rw [taken, copied]
  exact ⟨_, _, _, _, _, rfl⟩

theorem channelOf_reportsTaken (j : Nat) : channelOf (reportsTaken k c xs s) j =
    if j = k then { channelOf s k with fault := readBit c 0 1 } else channelOf s j := by
  obtain ⟨_, _, copied⟩ := copyIndication_frame k (readBit c 0 1) s
  obtain ⟨_, _, _, taken⟩ := takeReports_frame k ((channelOf s k).roster.zip xs)
    (s := copyIndication k (readBit c 0 1) s) (by rw [copied]; exact tables.1)
  unfold reportsTaken
  rw [channelOf_congr (s := copyIndication k (readBit c 0 1) s) (by rw [taken]),
    channelOf_copyIndication tables.2.2.1.1]

theorem reportsTaken_told : ChannelStill (copyIndication k (readBit c 0 1) s) (reportsTaken k c xs s) := by
  obtain ⟨_, _, copied⟩ := copyIndication_frame k (readBit c 0 1) s
  obtain ⟨_, _, _, taken⟩ := takeReports_frame k ((channelOf s k).roster.zip xs)
    (s := copyIndication k (readBit c 0 1) s) (by rw [copied]; exact tables.1)
  exact .of_links (by unfold reportsTaken; rw [taken])

theorem ascending_reportsTaken : Ascending (reportsTaken k c xs s).ctl.channels := by
  obtain ⟨_, _, copied⟩ := copyIndication_frame k (readBit c 0 1) s
  obtain ⟨_, _, _, taken⟩ := takeReports_frame k ((channelOf s k).roster.zip xs)
    (s := copyIndication k (readBit c 0 1) s) (by rw [copied]; exact tables.1)
  unfold reportsTaken
  rw [taken]
  exact ((inner_copyIndication k (readBit c 0 1) s).channels tables.2.2.1).1

theorem goodExchange_effect {rest : List Byte}
    (read : readSections (channelOf s k).roster.length (c.drop 1) = some (xs, rest)) :
    let t := goodExchange k c s
    let copied := { channelOf s k with fault := readBit c 0 1 }
    let u := reportsTaken k c xs s
    t.fleet = u.fleet ∧ t.track.reported = u.track.reported ∧ (∀ j, j ≠ k → channelOf t j = channelOf s j) ∧
    (readBit c 0 0 = false → t.eval = u.eval ∧ channelOf t k = { copied with failures := 0 } ∧
      ((channelOf s k).fault ≠ copied.fault → ChannelRaised s t k) ∧
      ((channelOf s k).fault = copied.fault →
        ∀ l, (linkOf t l).notices.channel = (linkOf s l).notices.channel)) ∧
    (readBit c 0 0 = true →
      channelOf t k = afterFault { copied with sticky := { copied.sticky with watchdogBite := true } } ∧
      ChannelRaised s t k ∧ NewlyMarked u t (fun n _ => ∃ r ∈ s.shares, r.entry = n ∧ channelOfUnit r.unit = k)) ∧
    ∀ r, s.ctl.round = some r →
      ((∀ j ∈ r.outstanding, j = k) → t.ctl.round = none ∧ t.ctl.failedMask = r.failed) ∧
      ((∃ j ∈ r.outstanding, j ≠ k) →
        t.ctl.round = some { r with outstanding := r.outstanding.filter fun j => j ≠ k }) := by
  intro t copied u
  obtain ⟨_, _, _, _, _, frame⟩ := reportsTaken_frame (k := k) (c := c) (xs := xs) tables
  have channels := channelOf_reportsTaken (k := k) (c := c) (xs := xs) tables
  have own := (channels k).trans (if_pos rfl)
  have rising := ascending_reportsTaken (k := k) (c := c) (xs := xs) tables
  have told := reportsTaken_told (k := k) (c := c) (xs := xs) tables
  have round : u.ctl.round = s.ctl.round := by rw [show u = _ from frame]
  cases bite : readBit c 0 0 with
  | false =>
    have calm : t = leaveOutstanding k (setChannel k { channelOf u k with failures := 0 } u) :=
      goodExchange_calm read bite
    have side := roundSide_leaveOutstanding k (setChannel k { channelOf u k with failures := 0 } u)
    have written (j : Nat) : channelOf t j = if j = k then { copied with failures := 0 } else channelOf s j := by
      rw [calm, side.channelOf, channelOf_setChannel rising, own, channels]
      split_ifs <;> rfl
    have after : ChannelStill u t := by
      rw [calm]
      exact (ChannelStill.of_links rfl).trans side.channel
    refine ⟨by rw [calm, side.fleet]; rfl, by rw [calm, side.reported]; rfl, fun j ne => (written j).trans (if_neg ne),
      fun _ => ⟨by rw [calm, side.eval]; rfl, (written k).trans (if_pos rfl), fun new => ?_, fun same => ?_⟩,
      fun h => (nomatch h), fun r h => ?_⟩
    · have raised := channelRaised_set k copied s
      rw [show raiseChannel k (setChannel k copied s) = _ from (copyIndication_new new).symm] at raised
      exact raised.still (told.trans after)
    · have still := told.trans after
      rw [copyIndication_same same] at still
      exact still.2.2
    · rw [calm]
      exact leaveOutstanding_round (s := setChannel k { channelOf u k with failures := 0 } u) (round.trans h) k
  | true =>
    have side := roundSide_leaveOutstanding k u
    have bitten : t = faultChannel k (setSticky k { copied.sticky with watchdogBite := true } (leaveOutstanding k u)) := by
      refine (goodExchange_bitten read bite).trans ?_
      show faultChannel k (setSticky k { (channelOf (leaveOutstanding k u) k).sticky with watchdogBite := true }
        (leaveOutstanding k u)) = _
      rw [side.channelOf, own]
    have only := (channelsOnly_setSticky k { copied.sticky with watchdogBite := true } (leaveOutstanding k u)).trans
      (channelsOnly_faultChannel k _)
    rw [← bitten] at only
    have written (j : Nat) : channelOf t j = if j = k then
        afterFault { copied with sticky := { copied.sticky with watchdogBite := true } } else channelOf s j := by
      rw [bitten, channelOf_faulted (by simp [FaultSet.none]), side.channelOf, side.channelOf, own, channels]
      split_ifs <;> rfl
    refine ⟨by rw [only.fleet, side.fleet], by rw [only.track, side.reported], fun j ne => (written j).trans (if_neg ne),
      fun h => (nomatch h), fun _ => ⟨(written k).trans (if_pos rfl), ?_, ?_⟩, fun r h => ?_⟩
    · rw [bitten]
      exact ((channelTold_copyIndication ..).still (told.trans side.channel)).raised (faulted_raised ..)
    · have marks := side.marked.trans (marked_faulted k { copied.sticky with watchdogBite := true } (leaveOutstanding k u))
      rw [← bitten] at marks
      have shares : (leaveOutstanding k u).shares = s.shares := by
        rw [side.shares]
        exact (congrArg State.shares frame :)
      refine (marks.congr (fun n e => ?_) fun i => rfl).marked
      rw [shares, false_or]
    · rw [only.round.1, only.round.2]
      exact leaveOutstanding_round (round.trans h) k

end

theorem rearmOutcome_effect {k : Nat} {o : ReplyOutcome} {s : State} (rising : Ascending s.ctl.channels)
    (running : (channelOf s k).state ≠ .faulted) (bad : o ≠ .good) :
    let t := rearmOutcome k o s
    let three := 3 ≤ (channelOf s k).failures + 1
    let counted := { channelOf s k with
      failures := (channelOf s k).failures + 1, sticky := addFault (channelOf s k).sticky o }
    t.fleet = s.fleet ∧ (∀ j, j ≠ k → channelOf t j = channelOf s j) ∧
      (¬three → channelOf t k = counted ∧ t.ctl.round = s.ctl.round ∧ t.eval = s.eval ∧
        (counted.sticky ≠ (channelOf s k).sticky → ChannelRaised s t k) ∧
        (counted.sticky = (channelOf s k).sticky →
          ∀ l, (linkOf t l).notices.channel = (linkOf s l).notices.channel)) ∧
      (three → channelOf t k = afterFault { counted with sticky := { counted.sticky with tooMany := true } } ∧
        ChannelRaised s t k ∧ NewlyMarked s t (fun n _ => ∃ r ∈ s.shares, r.entry = n ∧ channelOfUnit r.unit = k) ∧
        ∀ r, s.ctl.round = some r →
          ((∀ j ∈ r.outstanding, j = k) → t.ctl.round = none ∧ t.ctl.failedMask = r.failed) ∧
          ((∃ j ∈ r.outstanding, j ≠ k) →
            t.ctl.round = some { r with outstanding := r.outstanding.filter fun j => j ≠ k })) := by
  intro t three counted
  have channels := channelOf_countFailure (k := k) bad s
  have own := (channels k).trans (if_pos rfl)
  have only := channelsOnly_countFailure k o s
  have told : ChannelStill (setSticky k (addFault (channelOf s k).sticky o) s) (countFailure k o s) :=
    .of_links (countFailure_links k o s)
  by_cases h : three
  · have reached : 3 ≤ (channelOf (countFailure k o s) k).failures := by rw [own]; exact h
    have fault := channelOf_faultAtThree reached
    have faulted : t = leaveOutstanding k (faultAtThree k (countFailure k o s)) :=
      (rearmOutcome_bad bad s).trans (if_pos (by rw [fault, if_pos rfl]; rfl))
    have side := roundSide_leaveOutstanding k (faultAtThree k (countFailure k o s))
    have only' := only.trans (channelsOnly_faultAtThree k _)
    have written (j : Nat) : channelOf t j = if j = k then
        afterFault { counted with sticky := { counted.sticky with tooMany := true } } else channelOf s j := by
      rw [faulted, side.channelOf, fault, own, channels]
      split_ifs <;> rfl
    refine ⟨by rw [faulted, side.fleet, only'.fleet], fun j ne => (written j).trans (if_neg ne),
      fun below => absurd h below, fun _ => ⟨(written k).trans (if_pos rfl), ?_, ?_, fun r round => ?_⟩⟩
    · rw [faulted, faultAtThree_reached reached] at *
      exact (((channelTold_setSticky ..).still told).raised (faulted_raised ..)).still side.channel
    · have marks := ((marked_countFailure k o s).trans (marked_faulted k
        { (channelOf (countFailure k o s) k).sticky with tooMany := true } (countFailure k o s)))
      rw [← faultAtThree_reached reached] at marks
      have marks := marks.trans side.marked
      rw [← faulted, (marked_countFailure k o s).shares] at marks
      refine (marks.congr (fun n e => ?_) fun i => rfl).marked
      rw [false_or, or_false]
    · rw [faulted]
      exact leaveOutstanding_round (only'.round.1.trans round) k
  · have below : faultAtThree k (countFailure k o s) = countFailure k o s :=
      faultAtThree_below (by rw [own]; exact h)
    have calm : t = countFailure k o s := by
      refine (rearmOutcome_bad bad s).trans ?_
      rw [below, own]
      exact if_neg running
    rw [calm]
    refine ⟨only.fleet, fun j ne => (channels j).trans (if_neg ne), fun _ => ⟨own, only.round.1, ?_, fun new => ?_,
      fun same => ?_⟩, fun reached => absurd reached h⟩
    · exact setSticky_eval ..
    · exact (setSticky_raised new).still told
    · rw [setSticky_same same] at told
      exact told.2.2

/-- Settles O20: a failed and a good exchange, the report of a drop, telemetry, and the re-arming ARM. -/
theorem failedExchangeIsCounted : Obligations.FailedExchangeIsCounted := by
  refine ⟨?_, fun r frame c short => judgeAnswer_channelWire r frame short, ?_, ?_, ?_, ?_, ?_⟩
  · intro k o s bad t three
    have channels := failedExchange_channels (k := k) bad s
    have own := (channels k).trans (if_pos rfl)
    have round := failedExchange_round (k := k) bad s
    obtain ⟨raised, still⟩ := failedExchange_told (k := k) bad s
    have sticky : (channelOf t k).sticky = { addFault (channelOf s k).sticky o with
        tooMany := decide three || (channelOf s k).sticky.tooMany } := by
      rw [own]
      by_cases h : three
      · rw [if_pos h]
        simp [afterFault, h]
      · rw [if_neg h]
        simp only [h, decide_false, Bool.false_or]
        rw [← addFault_tooMany (channelOf s k).sticky o]
    have unfaulted (h : ¬three) : (channelOf t k).sticky = addFault (channelOf s k).sticky o := by
      rw [own, if_neg h]
    refine ⟨?_, sticky, ?_, fun j ne => (channels j).trans (if_neg ne), round.1, round.2,
      (inner_failedExchange k o s).shares, fun tables => ⟨unitOf_failedExchange bad tables.1,
        marked_failedExchange bad tables.1, fun h => raised ?_, fun same below => (still ?_ below).2.2⟩⟩
    · rw [own]
      split_ifs <;> rfl
    · rw [own]
      split_ifs <;> rfl
    · by_cases h' : three
      · exact .inr h'
      · rw [unfaulted h'] at h
        exact h
    · rwa [unfaulted below] at same
  · intro r status xs fits body
    have sections := readSections_sections fits
    refine ⟨sections, fun same => ?_⟩
    have read : readSections r.roster.length ((status :: body).drop 1) = some (xs, []) := by
      rw [same]
      have whole := sections []
      rwa [List.append_nil] at whole
    rw [contentsOutcome_exchange_read (List.cons_ne_nil _ _) read, if_pos rfl]
  · intro s k p tables t i u width good known late
    have rising := tables.1.1
    refine ⟨dropReport_unknown, fun reporting => ?_⟩
    obtain ⟨units, eval, reported, frame⟩ := dropReport_frame (k := k) rising p
    obtain ⟨marks, told, quiet, marked⟩ := reportEvents_dropReport rising p reporting
    refine ⟨by rw [show t = _ from frame], by rw [show t = _ from frame], marks, told, quiet, fun j => ?_, ?_, marked⟩
    · by_cases h : good
      · rw [show t = _ from dropReport_good reporting h, if_pos h, ite_not]
        exact unitOf_goodReport rising reporting _ j
      · rw [show t = _ from dropReport_missing reporting h, if_neg h, ite_not]
        exact unitOf_missingReport rising i j
    · by_cases h : good
      · rw [show t = _ from dropReport_good reporting h, if_pos h, reportUnit_track, track_goodReport rising reporting]
      · obtain ⟨_, _, e⟩ := missingReport_frame i s
        rw [show t = _ from dropReport_missing reporting h, if_neg h]
        exact (congrArg State.track e :)
  · intro cat before after d bits split first raw signed
    have field : reportedField d.kind (reportedRecords cat) bits = some (d, raw) := by
      rw [reportedRecords, split]
      exact reportedField_eq first bits
    refine ⟨fun soc => ?_, fun power => ?_⟩
    · rw [soc] at field
      rw [reportedSoc, field]
      rfl
    · rw [power] at field
      rw [reportedPower, field]
      rfl
  · intro k c s xs rest tables read t copied told u
    exact goodExchange_effect tables read
  · intro k o s tables running t three counted
    refine ⟨fun good => ?_, fun bad => ?_⟩
    · subst good
      exact rearmOutcome_good k s
    · exact rearmOutcome_effect tables.2.2.1.1 running bad

end Sys2Proof.Machine

/-! PROOF. The exchange timer's expiry, and a round's completion: the margin it computes and the accounts it credits (R44,
R51, R52, R145 to R151, R154 to R156). -/

namespace Sys2Proof.Machine

/-! ### The exchange timer (R44, R52) -/

/-- EXCHANGE made due on channels that run writes each named channel, and only those. -/
theorem channelOf_foldl_exchangeDue (cs : List Nat) (s : State) (k : Nat) : channelOf (cs.foldl exchangeDue s) k =
      if k ∈ cs then { channelOf s k with exchangePending := true } else channelOf s k :=
  channelOf_foldl (f := exchangeDue) (g := fun r => { r with exchangePending := true }) (fun _ => rfl)
    (fun s c k => channelOf_setChannel_listed (by simp [ChannelRec.reset]) c k s) cs s k

theorem foldl_exchangeDue_frame (cs : List Nat) (s : State) : ∃ channels, cs.foldl exchangeDue s =
    { s with ctl := { s.ctl with channels := channels } } := by
  induction cs generalizing s with
  | nil => exact ⟨_, rfl⟩
  | cons c cs ih =>
    obtain ⟨channels, e⟩ := ih (exchangeDue s c)
    exact ⟨channels, e⟩

/-- A round with its figures and its roll, before its EXCHANGE frames are due (R44, R145). -/
def roundBegun (s : State) : State :=
  { s with
    ctl := { s.ctl with
      round := some { participating := roundChannels s, outstanding := roundChannels s, failed := [] } }
    disp := { s.disp with figures := some (formFigures s) }
    track := { s.track with
      roll := some
        { entries := (s.book.entries.filter fun p => p.2.state == .active).map fun p =>
            { entry := p.1, product := p.2.product, awarded := p.2.awarded.getD 0 }
          slot := s.time.slot, period := s.ctl.period }
      reported := [] } }

theorem beginRound_eq (s : State) : beginRound s = completeIfDone ((roundChannels s).foldl exchangeDue (roundBegun s)) :=
  rfl

/-- Settles O21: a round that finds no channel completes at once; any other waits for its channels. -/
theorem exchangeTimerBeginsARound : Obligations.ExchangeTimerBeginsARound := by
  intro s running timer armed cs begun
  have expires : exec .exchangeTimerExpiry s = .next (settle (takeExchangeTimer s)) := if_neg (by simp [running])
  have same : roundBegun armed = begun := rfl
  refine ⟨fun flight => ?_, fun idle none => ?_, fun idle some => ?_⟩
  · rw [expires]
    exact congrArg (fun t => Host.Outcome.next (settle t)) ((if_pos timer).trans (if_pos flight))
  all_goals
    have began : takeExchangeTimer s = completeIfDone (cs.foldl exchangeDue begun) :=
      (if_pos timer).trans (if_neg (by simp [idle]))
  · rw [expires, began, none, List.foldl_nil, completeIfDone_some rfl, if_pos none]
  · obtain ⟨channels, frame⟩ := foldl_exchangeDue_frame cs begun
    refine ⟨cs.foldl exchangeDue begun, ?_, by rw [frame], fun k => ?_⟩
    · rw [expires, began, completeIfDone_some (r := { participating := cs, outstanding := cs, failed := [] })
        (by rw [frame]), if_neg some]
    · exact channelOf_foldl_exchangeDue cs begun k

end Sys2Proof.Machine

/-! PROOF. The accounts of the Delivery Tracker: how a round credits them, and how they become delivery records (R146 to
R149, R151). -/

namespace Sys2Proof.Machine

/-! ### Credits (R148) -/

/-- A credit: the entry it is for, and what it adds to an account. -/
abbrev Credit := Nat × (Accumulator → Accumulator)

/-- A credit leaves an account's slot. -/
def SlotKept (c : Credit) : Prop := ∀ a, (c.2 a).slot = a.slot

/-- Credits to the accounts of a slot, one after another. -/
def creditAll (slot : Nat) (cs : List Credit) (k : Tracker) : Tracker :=
  cs.foldl (fun k c => creditAccumulator slot c.1 c.2 k) k

/-- What the credits for one entry make of its account. -/
def credited (cs : List Credit) (n : Nat) (a : Accumulator) : Accumulator :=
  cs.foldl (fun a c => if c.1 = n then c.2 a else a) a

theorem credited_append (cs ds : List Credit) (n : Nat) (a : Accumulator) :
    credited (cs ++ ds) n a = credited ds n (credited cs n a) :=
  List.foldl_append

theorem credited_slot {cs : List Credit} (kept : ∀ c ∈ cs, SlotKept c) (n : Nat) (a : Accumulator) :
    (credited cs n a).slot = a.slot := by
  induction cs generalizing a with
  | nil => rfl
  | cons c cs ih =>
    refine (ih (fun d hd => kept d (List.mem_cons_of_mem _ hd)) _).trans ?_
    dsimp only
    split_ifs
    · exact kept c List.mem_cons_self a
    · rfl

/-- The slot of an entry's held account. -/
def heldSlot (k : Tracker) (n : Nat) : Option Nat := (tableFind k.held n).map Accumulator.slot

/-- One credit reaches the held account of its slot, else the current one of its slot. -/
theorem find_creditAccumulator {slot n : Nat} {f : Accumulator → Accumulator} (k : Tracker) (j : Nat) :
    tableFind (creditAccumulator slot n f k).held j =
      (tableFind k.held j).map (fun a => if n = j ∧ a.slot = slot then f a else a) ∧
    tableFind (creditAccumulator slot n f k).current j =
      (tableFind k.current j).map (fun a => if n = j ∧ a.slot = slot ∧ heldSlot k j ≠ some slot then f a else a) := by
  have same (o : Option Accumulator) {p : Accumulator → Prop} [DecidablePred p] (no : ∀ a, o = some a → ¬p a) :
      o.map (fun a => if p a then f a else a) = o := by
    cases o with
    | none => rfl
    | some a => exact congrArg some (if_neg (no a rfl))
  rcases creditAccumulator_cases slot n f k with ⟨a, found, at_, e⟩ | ⟨notHeld, ⟨a, found, at_, e⟩ | ⟨notCurrent, e⟩⟩ <;> rw [e]
  · have held : heldSlot k n = some slot := by rw [heldSlot, found, Option.map_some, at_]
    refine ⟨?_, (same _ fun b hb h => ?_).symm⟩
    · rw [tableFind_tableInsert]
      split_ifs with h
      · rw [h, found]
        simp [at_]
      · exact (same _ fun b hb g => h g.1.symm).symm
    · obtain ⟨rfl, _, out⟩ := h
      exact out held
  · refine ⟨(same _ fun b hb h => ?_).symm, ?_⟩
    · obtain ⟨rfl, own⟩ := h
      exact notHeld b hb own
    · rw [tableFind_tableInsert]
      split_ifs with h
      · have free : heldSlot k n ≠ some slot := by
          unfold heldSlot
          cases other : tableFind k.held n with
          | none => simp
          | some b => simpa using notHeld b other
        rw [h, found]
        simp [at_, free]
      · exact (same _ fun b hb g => h g.1.symm).symm
  · refine ⟨(same _ fun b hb h => ?_).symm, (same _ fun b hb h => ?_).symm⟩
    · obtain ⟨rfl, own⟩ := h
      exact notHeld b hb own
    · obtain ⟨rfl, own, _⟩ := h
      exact notCurrent b hb own

theorem heldSlot_creditAccumulator {slot : Nat} {c : Credit} (kept : SlotKept c) (k : Tracker) (j : Nat) :
    heldSlot (creditAccumulator slot c.1 c.2 k) j = heldSlot k j := by
  unfold heldSlot
  rw [(find_creditAccumulator k j).1, Option.map_map]
  refine congrFun (congrArg Option.map (funext fun a => ?_)) _
  dsimp only [Function.comp]
  split_ifs
  · exact kept a
  · rfl

/-- Credits reach the accounts of their slot, the held one before the current one. -/
theorem find_creditAll {slot : Nat} {cs : List Credit} (kept : ∀ c ∈ cs, SlotKept c) (k : Tracker) (j : Nat) :
    tableFind (creditAll slot cs k).held j =
      (tableFind k.held j).map (fun a => if a.slot = slot then credited cs j a else a) ∧
    tableFind (creditAll slot cs k).current j = (tableFind k.current j).map
      (fun a => if a.slot = slot ∧ heldSlot k j ≠ some slot then credited cs j a else a) := by
  induction cs generalizing k with
  | nil =>
    have id (o : Option Accumulator) {p : Accumulator → Prop} [DecidablePred p] :
        o.map (fun a => if p a then credited [] j a else a) = o := by
      cases o with
      | none => rfl
      | some a => exact congrArg some (ite_self a)
    exact ⟨(id _).symm, (id _).symm⟩
  | cons c cs ih =>
    have first : SlotKept c := kept c List.mem_cons_self
    obtain ⟨held, current⟩ := ih (fun d hd => kept d (List.mem_cons_of_mem _ hd)) (creditAccumulator slot c.1 c.2 k)
    have one := find_creditAccumulator (slot := slot) (n := c.1) (f := c.2) k j
    have step (a : Accumulator) : (if c.1 = j then c.2 a else a).slot = a.slot := by
      split_ifs
      · exact first a
      · rfl
    refine ⟨held.trans ?_, current.trans ?_⟩
    · rw [one.1, Option.map_map]
      refine congrFun (congrArg Option.map (funext fun a => ?_)) _
      dsimp only [Function.comp]
      by_cases own : a.slot = slot
      · simp only [own, and_true, if_true, step]
        rfl
      · simp [own]
    · rw [one.2, Option.map_map, heldSlot_creditAccumulator first]
      refine congrFun (congrArg Option.map (funext fun a => ?_)) _
      dsimp only [Function.comp]
      by_cases own : a.slot = slot ∧ heldSlot k j ≠ some slot
      · obtain ⟨at_, free⟩ := own
        simp only [at_, free, ne_eq, not_false_eq_true, and_self, and_true, if_true, step]
        rfl
      · simp [own]

theorem ascending_creditAll (slot : Nat) (cs : List Credit) (k : Tracker) : AccountsKept k (creditAll slot cs k) :=
  .foldl (fun _ _ => accountsKept_creditAccumulator ..) cs k

/-- A table whose records are rewritten number by number. -/
theorem tableFind_map {α β : Type} (f : Nat → α → β) (l : List (Nat × α)) (j : Nat) :
    tableFind (l.map fun p => (p.1, f p.1 p.2)) j = (tableFind l j).map (f j) := by
  induction l with
  | nil => rfl
  | cons p l ih =>
    obtain ⟨i, a⟩ := p
    by_cases own : i = j
    · simp [tableFind, own]
    · simpa [tableFind, own] using ih

/-- The held accounts after credits, in their order. -/
theorem held_creditAll {slot : Nat} {cs : List Credit} (kept : ∀ c ∈ cs, SlotKept c) {k : Tracker}
    (rising : Ascending k.held) : (creditAll slot cs k).held =
      k.held.map fun p => (p.1, if p.2.slot = slot then credited cs p.1 p.2 else p.2) := by
  have rising' : Ascending (k.held.map fun p => (p.1, if p.2.slot = slot then credited cs p.1 p.2 else p.2)) := by
    unfold Ascending at *
    rwa [List.map_map]
  refine ascending_eq_of_tableFind ((ascending_creditAll slot cs k).2.2 rising) rising' fun j => ?_
  rw [(find_creditAll kept k j).1, tableFind_map (fun n a => if a.slot = slot then credited cs n a else a)]

/-! ### The credits of a round (R146, R147) -/

def requestedCredits (roll : Roll) (f : RoundFigures) : List Credit :=
  roll.entries.map fun e => (e.entry, addRequested ((e.awarded : Int) * fractionOf f e.product * roll.period))

def deliveredCredits (s : State) (roll : Roll) (f : RoundFigures) : List Credit :=
  if f.method = .normal then
    (s.track.reported.flatMap fun u => attribution (unitOf s u).measured ((tableFind f.duties u).getD [])).map
      fun p => (p.1, addDelivered (p.2 * roll.period))
  else []

def shortfallCredits (f : RoundFigures) : List Credit :=
  if f.shortfall = 0 then []
  else f.orphans.map fun p => (p.1, fun a => { a with shortfallRounds := min 3600 (a.shortfallRounds + 1) })

def overrideCredits (roll : Roll) (f : RoundFigures) : List Credit :=
  if f.method = .zeroHalt ∨ f.method = .fullUp then
    roll.entries.map fun e => (e.entry, fun a => { a with overrideMark := true })
  else []

/-- All that a completed round credits. -/
def roundCredits (s : State) (roll : Roll) (f : RoundFigures) : List Credit :=
  requestedCredits roll f ++ deliveredCredits s roll f ++ shortfallCredits f ++ overrideCredits roll f

theorem creditRequested_eq (roll : Roll) (f : RoundFigures) (k : Tracker) :
    creditRequested roll f k = creditAll roll.slot (requestedCredits roll f) k := by
  unfold creditRequested creditAll requestedCredits
  rw [List.foldl_map]

theorem credits_eq (s : State) (roll : Roll) (f : RoundFigures) (k : Tracker) :
    creditOverride roll f (creditShortfall roll f (creditDelivered s roll f (creditRequested roll f k))) =
      creditAll roll.slot (roundCredits s roll f) k := by
  have delivered (k : Tracker) : creditDelivered s roll f k = creditAll roll.slot (deliveredCredits s roll f) k := by
    unfold creditDelivered creditAll deliveredCredits
    split_ifs
    · rw [List.foldl_map]
    · rfl
  have shortfall (k : Tracker) : creditShortfall roll f k = creditAll roll.slot (shortfallCredits f) k := by
    unfold creditShortfall creditAll shortfallCredits
    split_ifs
    · rfl
    · rw [List.foldl_map]
  have override (k : Tracker) : creditOverride roll f k = creditAll roll.slot (overrideCredits roll f) k := by
    unfold creditOverride creditAll overrideCredits
    split_ifs
    · rw [List.foldl_map]
    · rfl
  rw [creditRequested_eq, delivered, shortfall, override]
  simp only [creditAll, roundCredits, List.foldl_append]

theorem slotKept_addRequested (n : Nat) (x : Int) : SlotKept (n, addRequested x) := fun a => by
  simp only [addRequested]
  split_ifs <;> rfl

theorem slotKept_addDelivered (n : Nat) (x : Int) : SlotKept (n, addDelivered x) := fun a => by
  simp only [addDelivered]
  split_ifs <;> rfl

theorem slotKept_roundCredits (s : State) (roll : Roll) (f : RoundFigures) : ∀ c ∈ roundCredits s roll f, SlotKept c := by
  intro c hc
  simp only [roundCredits, List.mem_append] at hc
  rcases hc with ((hc | hc) | hc) | hc
  · obtain ⟨e, _, rfl⟩ := List.mem_map.1 hc
    exact slotKept_addRequested _ _
  · unfold deliveredCredits at hc
    split_ifs at hc
    · obtain ⟨p, _, rfl⟩ := List.mem_map.1 hc
      exact slotKept_addDelivered _ _
    · cases hc
  · unfold shortfallCredits at hc
    split_ifs at hc
    · cases hc
    · obtain ⟨p, _, rfl⟩ := List.mem_map.1 hc
      exact fun a => rfl
  · unfold overrideCredits at hc
    split_ifs at hc
    · obtain ⟨p, _, rfl⟩ := List.mem_map.1 hc
      exact fun a => rfl
    · cases hc

/-! ### What an entry's credits come to -/

theorem addRequested_eq (x : Int) (a : Accumulator) : addRequested x a = { a with
    requestedUp := a.requestedUp + x.toNat, requestedDown := a.requestedDown + (-x).toNat } := by
  unfold addRequested
  split_ifs with h
  · rw [show (-x).toNat = 0 by omega]
    rfl
  · rw [show x.toNat = 0 by omega]
    rfl

theorem addDelivered_eq (x : Int) (a : Accumulator) : addDelivered x a = { a with
    deliveredUp := a.deliveredUp + x.toNat, deliveredDown := a.deliveredDown + (-x).toNat } := by
  unfold addDelivered
  split_ifs with h
  · rw [show (-x).toNat = 0 by omega]
    rfl
  · rw [show x.toNat = 0 by omega]
    rfl

/-- Energies credited as requested add up by their sign. -/
theorem credited_requested {α : Type} (key : α → Nat) (x : α → Int) (l : List α) (n : Nat) (a : Accumulator) :
    credited (l.map fun e => (key e, addRequested (x e))) n a = { a with
      requestedUp := a.requestedUp + (((l.filter fun e => key e = n).map x).map Int.toNat).sum
      requestedDown := a.requestedDown + (((l.filter fun e => key e = n).map x).map fun x => (-x).toNat).sum } := by
  induction l generalizing a with
  | nil => rfl
  | cons e l ih =>
    refine (ih _).trans ?_
    by_cases own : key e = n
    · simp [own, addRequested_eq, Nat.add_assoc]
    · simp [own]

theorem credited_delivered {α : Type} (key : α → Nat) (x : α → Int) (l : List α) (n : Nat) (a : Accumulator) :
    credited (l.map fun e => (key e, addDelivered (x e))) n a = { a with
      deliveredUp := a.deliveredUp + (((l.filter fun e => key e = n).map x).map Int.toNat).sum
      deliveredDown := a.deliveredDown + (((l.filter fun e => key e = n).map x).map fun x => (-x).toNat).sum } := by
  induction l generalizing a with
  | nil => rfl
  | cons e l ih =>
    refine (ih _).trans ?_
    by_cases own : key e = n
    · simp [own, addDelivered_eq, Nat.add_assoc]
    · simp [own]

/-- Shortfall rounds count to 3600. -/
theorem credited_shortfall (l : List (Nat × Int)) (n : Nat) (a : Accumulator) :
    credited (l.map fun p => (p.1, fun a => { a with shortfallRounds := min 3600 (a.shortfallRounds + 1) })) n a =
      { a with shortfallRounds := if (l.filter fun p => p.1 = n).length = 0 then a.shortfallRounds
        else min 3600 (a.shortfallRounds + (l.filter fun p => p.1 = n).length) } := by
  induction l generalizing a with
  | nil => rfl
  | cons p l ih =>
    refine (ih _).trans ?_
    by_cases own : p.1 = n
    · simp [own]
      split_ifs <;> omega
    · simp only [List.filter_cons, own, decide_false, if_false, Bool.false_eq_true]

theorem credited_override (l : List RollEntry) (n : Nat) (a : Accumulator) :
    credited (l.map fun e => (e.entry, fun a => { a with overrideMark := true })) n a =
      { a with overrideMark := a.overrideMark || l.any fun e => e.entry == n } := by
  induction l generalizing a with
  | nil => simp [credited]
  | cons e l ih =>
    refine (ih _).trans ?_
    by_cases own : e.entry = n
    · simp [own]
    · have other : (e.entry == n) = false := by simpa using own
      simp [own, other]

end Sys2Proof.Machine

/-! PROOF. A round's completion: the delivery records its accounts become, and the margin it computes (R149, R151, R154 to
R156). -/

namespace Sys2Proof.Machine

/-! ### Delivery records queued (R151) -/

/-- The queue written, with RECORDS raised when it was empty and is not. -/
def queued (q : List DeliveryRecord) (s : State) : State :=
  if s.track.queue = [] ∧ q ≠ [] then raiseOn .tl .records { s with track := { s.track with queue := q } }
  else { s with track := { s.track with queue := q } }

theorem queued_self (s : State) : queued s.track.queue s = s :=
  if_neg fun ⟨empty, listed⟩ => listed empty

theorem queued_track (q : List DeliveryRecord) (s : State) : (queued q s).track = { s.track with queue := q } := by
  unfold queued
  split_ifs
  · rw [raiseOn_eq_setLinks]
  · rfl

theorem queued_frame (q : List DeliveryRecord) (s : State) :
    ∃ links, queued q s = { s with track := { s.track with queue := q }, links := links } := by
  unfold queued
  split_ifs
  · exact ⟨_, raiseOn_eq_setLinks ..⟩
  · exact ⟨_, rfl⟩

theorem queued_queued {p q : List DeliveryRecord} {s : State} (keeps : s.track.queue ≠ [] → p ≠ [])
    (grows : p ≠ [] → q ≠ []) :
    queued q (queued p s) = queued q s := by
  by_cases empty : s.track.queue = []
  · by_cases none : p = []
    · have same : queued p s = s := by rw [none, ← empty, queued_self]
      rw [same]
    · have first : queued p s = raiseOn .tl .records { s with track := { s.track with queue := p } } :=
        if_pos ⟨empty, none⟩
      have second : queued q s = raiseOn .tl .records { s with track := { s.track with queue := q } } :=
        if_pos ⟨empty, grows none⟩
      have still : ¬((queued p s).track.queue = [] ∧ q ≠ []) := by
        rw [queued_track]
        exact fun h => none h.1
      rw [second, queued, if_neg still, first]
      rfl
  · have first : queued p s = { s with track := { s.track with queue := p } } := if_neg fun h => empty h.1
    rw [first]
    exact (if_neg fun h => keeps empty h.1).trans (if_neg fun h => empty h.1).symm

theorem records_queued (q : List DeliveryRecord) (s : State) : (queued q s).links.tl.notices.records = true ↔
    s.links.tl.notices.records = true ∨ (s.track.queue = [] ∧ q ≠ []) := by
  unfold queued
  split_ifs with raised
  · exact ⟨fun _ => .inr raised, fun _ => rfl⟩
  · exact ⟨.inl, fun h => h.resolve_right raised⟩

/-- No notice but RECORDS on TL differs. -/
theorem notices_queued {k : NoticeKind} (h : k ≠ .records) (q : List DeliveryRecord) (s : State) (l : Link) :
    noticeGet (linkOf (queued q s) l).notices k = noticeGet (linkOf s l).notices k := by
  unfold queued
  split_ifs
  · rw [linkOf_raiseOn]
    split_ifs with same
    · rw [same, noticeGet_noticeSet, if_neg h]
      rfl
    · rfl
  · rfl

/-- One more record in the queue, or an account without an entry that is dropped (log 24). -/
def emitted (s : State) (p : Nat × Accumulator) (q : List DeliveryRecord) : List DeliveryRecord :=
  match entryOf s p.1 with
  | none => q
  | some e =>
    if 256 ≤ q.length then q.drop 1 ++ [{ recordOfAccount p.1 e p.2 with gapBefore := true }]
    else q ++ [recordOfAccount p.1 e p.2]

theorem emitted_ne_nil {s : State} {p : Nat × Accumulator} {q : List DeliveryRecord} (h : q ≠ []) :
    emitted s p q ≠ [] := by
  unfold emitted
  cases entryOf s p.1 with
  | none => exact h
  | some e =>
    dsimp only
    split_ifs <;> simp

theorem recordsEmitted_cons (s : State) (p : Nat × Accumulator) (l : List (Nat × Accumulator))
    (q : List DeliveryRecord) : recordsEmitted s (p :: l) q = recordsEmitted s l (emitted s p q) := rfl

theorem recordsEmitted_ne_nil {s : State} {l : List (Nat × Accumulator)} {q : List DeliveryRecord} (h : q ≠ []) :
    recordsEmitted s l q ≠ [] := by
  induction l generalizing q with
  | nil => exact h
  | cons p l ih => exact ih (emitted_ne_nil h)

theorem recordsEmitted_congr {s t : State} (h : t.book.entries = s.book.entries) :
    recordsEmitted t = recordsEmitted s := by
  unfold recordsEmitted entryOf
  rw [h]

theorem emitRecord_queued (p : Nat × Accumulator) (s : State) :
    emitRecord p.1 p.2 false s = queued (emitted s p s.track.queue) s := by
  unfold emitRecord emitted
  cases entryOf s p.1 with
  | none => exact (queued_self s).symm
  | some e =>
    dsimp only [appendRecord]
    have full : Config.deliveryQueue = 256 := rfl
    rw [full]
    by_cases long : 256 ≤ s.track.queue.length
    · rw [if_pos long, if_pos long]
      have some : s.track.queue ≠ [] := fun h => by simp [h] at long
      exact (if_neg some).trans (if_neg fun h => some h.1).symm
    · rw [if_neg long, if_neg long]
      by_cases empty : s.track.queue = []
      · exact (if_pos empty).trans (if_pos ⟨empty, by simp⟩).symm
      · exact (if_neg empty).trans (if_neg fun h => empty h.1).symm

/-- Accounts become delivery records in their order (R149). -/
theorem foldl_emitRecord (l : List (Nat × Accumulator)) (s : State) :
    l.foldl (fun s p => emitRecord p.1 p.2 false s) s = queued (recordsEmitted s l s.track.queue) s := by
  induction l generalizing s with
  | nil => exact (queued_self s).symm
  | cons p l ih =>
    obtain ⟨_, frame⟩ := queued_frame (emitted s p s.track.queue) s
    have same : recordsEmitted (queued (emitted s p s.track.queue) s) = recordsEmitted s :=
      recordsEmitted_congr (by rw [frame])
    rw [List.foldl_cons, emitRecord_queued, ih, same, queued_track, recordsEmitted_cons]
    exact queued_queued emitted_ne_nil recordsEmitted_ne_nil

/-! ### What a completion credits and queues (R146 to R149) -/

/-- The tracker of a completed round, its records not yet queued. -/
def trackCredited (s : State) (roll : Roll) (f : RoundFigures) : Tracker :=
  { creditAll roll.slot (roundCredits s roll f) s.track with roll := none, held := [] }

theorem trackCompletion_credits {s : State} {roll : Roll} {f : RoundFigures} (rolled : s.track.roll = some roll)
    (formed : s.disp.figures = some f) : trackCompletion s =
      queued (recordsEmitted s (creditAll roll.slot (roundCredits s roll f) s.track).held s.track.queue)
        { s with track := trackCredited s roll f } := by
  have credits : creditRound s = { s with track := creditAll roll.slot (roundCredits s roll f) s.track } := by
    unfold creditRound
    rw [rolled, formed]
    exact congrArg (fun k => { s with track := k }) (credits_eq s roll f s.track)
  have queue : (creditAll roll.slot (roundCredits s roll f) s.track).queue = s.track.queue :=
    (ascending_creditAll ..).1.1
  rw [trackCompletion_eq, credits]
  exact (foldl_emitRecord _ _).trans (congrArg (fun q => queued
    (recordsEmitted s (creditAll roll.slot (roundCredits s roll f) s.track).held q)
    { s with track := trackCredited s roll f }) queue)

/-- A completion changes the accounts and raises no notice but RECORDS. -/
theorem trackCompletion_frame (s : State) : ∃ track links, trackCompletion s = { s with track := track, links := links } ∧
    ∀ l, noticeGet (linkOf (trackCompletion s) l).notices .margin = noticeGet (linkOf s l).notices .margin := by
  have credits : ∃ track, creditRound s = { s with track := track } := by
    unfold creditRound
    cases s.track.roll with
    | none => exact ⟨_, rfl⟩
    | some roll =>
      cases s.disp.figures with
      | none => exact ⟨_, rfl⟩
      | some f => exact ⟨_, rfl⟩
  obtain ⟨track, credits⟩ := credits
  have emits := foldl_emitRecord track.held { s with track := { track with roll := none, held := [] } }
  obtain ⟨links, frame⟩ := queued_frame (recordsEmitted { s with track := { track with roll := none, held := [] } }
    track.held track.queue) { s with track := { track with roll := none, held := [] } }
  have notices := notices_queued (k := .margin) (by simp) (recordsEmitted
    { s with track := { track with roll := none, held := [] } } track.held track.queue)
    { s with track := { track with roll := none, held := [] } }
  have whole : trackCompletion s = queued (recordsEmitted { s with track := { track with roll := none, held := [] } }
      track.held track.queue) { s with track := { track with roll := none, held := [] } } := by
    rw [trackCompletion_eq, credits]
    exact emits
  rw [whole]
  exact ⟨_, _, frame, fun l => notices l⟩

/-! ### The margin a completion computes (R154 to R156) -/

/-- The margin depends on the book, the units, the channels and the margin before alone. -/
theorem computeMargin_congr {s t : State} (margin : t.margin = s.margin) (book : t.book = s.book)
    (fleet : t.fleet = s.fleet) (channels : t.ctl.channels = s.ctl.channels) : computeMargin t = computeMargin s := by
  have live : liveUnits t = liveUnits s := by
    unfold liveUnits
    rw [fleet]
    refine congrArg (fun p => (s.fleet.units.map Prod.fst).filter p) (funext fun i => ?_)
    exact contributing_congr fleet (fun c => congrArg ChannelRec.state (channelOf_congr channels c)) i
  have unit (i : Nat) : unitOf t i = unitOf s i := unitOf_congr fleet i
  have feeder (g : Nat) : feederOf t g = feederOf s g := by
    unfold feederOf
    rw [fleet]
  have deliverable (figure : UnitRec → Nat) (limit : FeederLimits → Nat) :
      deliverableOver t figure limit = deliverableOver s figure limit := by
    simp only [deliverableOver, live, unit, feeder]
  simp only [computeMargin, enduranceOver, obligationOf, deliverable, margin, book]

theorem margin_marginCompletion (s : State) : (marginCompletion s).margin = computeMargin s := by
  dsimp only [marginCompletion]
  split_ifs
  · rfl
  · simp [raiseTlGl]

/-- MARGIN is raised towards TL and GL when the overall state changes, and else not (R156). -/
theorem marginCompletion_notices (s : State) :
    ((computeMargin s).overall ≠ s.margin.overall → (marginCompletion s).links.tl.notices.margin = true ∧
      (marginCompletion s).links.gl.notices.margin = true) ∧
    ∀ l, l = .fa ∨ l = .fb ∨ (computeMargin s).overall = s.margin.overall →
      (linkOf (marginCompletion s) l).notices.margin = (linkOf s l).notices.margin := by
  dsimp only [marginCompletion]
  by_cases same : (computeMargin s).overall = s.margin.overall
  · rw [if_pos same]
    exact ⟨fun h => absurd same h, fun l _ => by cases l <;> rfl⟩
  · rw [if_neg same]
    refine ⟨fun _ => ⟨rfl, rfl⟩, fun l h => ?_⟩
    rcases h with rfl | rfl | h
    · rfl
    · rfl
    · exact absurd h same

theorem completeRound_eq {s : State} {r : Round} (h : s.ctl.round = some r) : completeRound s = marginCompletion
    (trackCompletion { s with ctl := { s.ctl with failedMask := r.failed, round := none } }) := by
  unfold completeRound
  rw [h]

theorem completeRound_margin {s : State} {r : Round} (h : s.ctl.round = some r) :
    (completeRound s).margin = computeMargin s ∧
    ((computeMargin s).overall ≠ s.margin.overall → (completeRound s).links.tl.notices.margin = true ∧
      (completeRound s).links.gl.notices.margin = true) ∧
    ∀ l, l = .fa ∨ l = .fb ∨ (computeMargin s).overall = s.margin.overall →
      (linkOf (completeRound s) l).notices.margin = (linkOf s l).notices.margin := by
  obtain ⟨_, _, frame, notices⟩ := trackCompletion_frame
    { s with ctl := { s.ctl with failedMask := r.failed, round := none } }
  set v := trackCompletion { s with ctl := { s.ctl with failedMask := r.failed, round := none } } with hv
  have margin : v.margin = s.margin := by rw [frame]
  have same : computeMargin v = computeMargin s :=
    computeMargin_congr margin (by rw [frame]) (by rw [frame]) (by rw [frame])
  obtain ⟨raised, still⟩ := marginCompletion_notices v
  rw [same, margin] at raised still
  rw [completeRound_eq h, ← hv, margin_marginCompletion]
  exact ⟨same, raised, fun l hl => (still l hl).trans (notices l)⟩

/-- Summing over the entries that pass a test. -/
theorem sum_ite_eq_filter {α : Type} (l : List α) (p : α → Bool) (g : α → Nat) :
    (l.map fun q => if p q = true then g q else 0).sum = ((l.filter p).map g).sum := by
  induction l with
  | nil => rfl
  | cons a l ih =>
    rw [List.map_cons, List.sum_cons, ih, List.filter_cons]
    split_ifs with h
    · rfl
    · exact Nat.zero_add _

/-- The largest of a list of numbers, over 0. -/
theorem foldl_max_eq {l : List Nat} {T : Nat} (mem : T ∈ l) (bound : ∀ x ∈ l, x ≤ T) : l.foldl max 0 = T := by
  have least (l : List Nat) (a : Nat) : (∀ x ∈ l, x ≤ l.foldl max a) ∧ a ≤ l.foldl max a ∧
      (∀ T, a ≤ T → (∀ x ∈ l, x ≤ T) → l.foldl max a ≤ T) := by
    induction l generalizing a with
    | nil => exact ⟨by simp, le_rfl, fun T h _ => h⟩
    | cons b l ih =>
      obtain ⟨above, start, below⟩ := ih (max a b)
      refine ⟨fun x hx => ?_, (le_max_left a b).trans start, fun T ha hl =>
        below T (max_le ha (hl b List.mem_cons_self)) fun x hx => hl x (List.mem_cons_of_mem _ hx)⟩
      rcases List.mem_cons.1 hx with rfl | later
      · exact (le_max_right a x).trans start
      · exact above x later
  obtain ⟨above, _, below⟩ := least l 0
  exact le_antisymm (below T (Nat.zero_le T) bound) (above T mem)

/-- An entry sold by a product that counts in a direction. -/
def soldBy (p : Product → Bool) (q : Nat × Entry) : Bool := q.2.state == .active && p q.2.product

theorem obligationOf_eq (s : State) (p : Product → Bool) : obligationOf s p =
    ((s.book.entries.filter (soldBy p)).map fun q => q.2.awarded.getD 0 * 1000).sum := by
  rw [← sum_ite_eq_filter, obligationOf]
  simp [soldBy]

theorem enduranceOver_eq {s : State} {p : Product → Bool} {T : Nat}
    (attained : ∃ q ∈ s.book.entries.filter (soldBy p), enduranceOf s.book.endurance q.2.product = T)
    (bound : ∀ q ∈ s.book.entries.filter (soldBy p), enduranceOf s.book.endurance q.2.product ≤ T) :
    enduranceOver s p = T := by
  have same : (s.book.entries.filter fun q => decide (q.2.state = .active) && p q.2.product) =
      s.book.entries.filter (soldBy p) := rfl
  unfold enduranceOver
  rw [same]
  obtain ⟨q, mem, rfl⟩ := attained
  refine foldl_max_eq (List.mem_map.2 ⟨q, mem, rfl⟩) fun x hx => ?_
  obtain ⟨q', mem', rfl⟩ := List.mem_map.1 hx
  exact bound q' mem'

end Sys2Proof.Machine

/-! PROOF. What a round's completion leaves: its margin, its accounts and its delivery records (R51, R146 to R151, R154 to
R156). -/

namespace Sys2Proof.Machine

/-! ### What an entry's account takes from a round (R146 to R148) -/

/-- The energies a round requests of an entry. -/
def requestedOf (roll : Roll) (f : RoundFigures) (n : Nat) : List Int :=
  (roll.entries.filter fun e => e.entry = n).map fun e => (e.awarded : Int) * fractionOf f e.product * roll.period

/-- The energies that the reported units deliver for an entry. -/
def deliveredOf (s : State) (roll : Roll) (f : RoundFigures) (n : Nat) : List Int :=
  if f.method = .normal then
    s.track.reported.flatMap fun u =>
      let x := (unitOf s u).measured
      let duty := (tableFind f.duties u).getD []
      let total := (duty.map Prod.snd).sum
      if (0 < x ∧ 0 < total) ∨ (x < 0 ∧ total < 0) then
        (duty.filter fun p => p.1 = n).map fun p => Int.tdiv (x * p.2) total * roll.period
      else []
  else []

/-- The shortfall rounds of an entry. -/
def shortOf (f : RoundFigures) (n : Nat) : Nat :=
  if f.shortfall = 0 then 0 else (f.orphans.filter fun p => p.1 = n).length

theorem attribution_filter (m period : Int) (duty : List (Nat × Int)) (n : Nat) :
    ((attribution m duty).filter fun p => p.1 = n).map (fun p => p.2 * period) =
      if (0 < m ∧ 0 < (duty.map Prod.snd).sum) ∨ (m < 0 ∧ (duty.map Prod.snd).sum < 0) then
        (duty.filter fun p => p.1 = n).map fun p => Int.tdiv (m * p.2) (duty.map Prod.snd).sum * period
      else [] := by
  unfold attribution
  dsimp only
  split_ifs
  · rw [List.filter_map, List.map_map]
    rfl
  · rfl

theorem credited_deliveredCredits (s : State) (roll : Roll) (f : RoundFigures) (n : Nat) (a : Accumulator) :
    credited (deliveredCredits s roll f) n a = { a with
      deliveredUp := a.deliveredUp + ((deliveredOf s roll f n).map Int.toNat).sum
      deliveredDown := a.deliveredDown + ((deliveredOf s roll f n).map fun x => (-x).toNat).sum } := by
  unfold deliveredCredits deliveredOf
  split_ifs with normal
  · rw [credited_delivered (key := Prod.fst) (x := fun p => p.2 * roll.period), List.filter_flatMap, List.map_flatMap]
    simp only [attribution_filter]
  · rfl

theorem credited_shortfallCredits (f : RoundFigures) (n : Nat) (a : Accumulator) :
    credited (shortfallCredits f) n a = { a with
      shortfallRounds := if shortOf f n = 0 then a.shortfallRounds else min 3600 (a.shortfallRounds + shortOf f n) } := by
  unfold shortfallCredits shortOf
  by_cases none : f.shortfall = 0
  · rw [if_pos none, if_pos none]
    rfl
  · rw [if_neg none, if_neg none]
    exact credited_shortfall ..

theorem credited_overrideCredits (roll : Roll) (f : RoundFigures) (n : Nat) (a : Accumulator) :
    credited (overrideCredits roll f) n a = { a with overrideMark := a.overrideMark ||
      (decide (f.method = .zeroHalt ∨ f.method = .fullUp) && roll.entries.any fun e => e.entry == n) } := by
  unfold overrideCredits
  split_ifs with h
  · rw [credited_override]
    simp [h]
  · simp [credited, h]

theorem credited_roundCredits (s : State) (roll : Roll) (f : RoundFigures) (n : Nat) (a : Accumulator) :
    credited (roundCredits s roll f) n a = { a with
      requestedUp := a.requestedUp + ((requestedOf roll f n).map Int.toNat).sum
      requestedDown := a.requestedDown + ((requestedOf roll f n).map fun x => (-x).toNat).sum
      deliveredUp := a.deliveredUp + ((deliveredOf s roll f n).map Int.toNat).sum
      deliveredDown := a.deliveredDown + ((deliveredOf s roll f n).map fun x => (-x).toNat).sum
      shortfallRounds := if shortOf f n = 0 then a.shortfallRounds else min 3600 (a.shortfallRounds + shortOf f n)
      overrideMark := a.overrideMark || (decide (f.method = .zeroHalt ∨ f.method = .fullUp) &&
        roll.entries.any fun e => e.entry == n) } := by
  unfold roundCredits
  rw [credited_append, credited_append, credited_append, credited_overrideCredits, credited_shortfallCredits,
    credited_deliveredCredits]
  have requested := credited_requested RollEntry.entry
    (fun e => (e.awarded : Int) * fractionOf f e.product * roll.period) roll.entries n a
  unfold requestedCredits
  rw [requested]
  rfl

theorem marginCompletion_track (s : State) : (marginCompletion s).track = s.track ∧
    (marginCompletion s).links.tl.notices.records = s.links.tl.notices.records := by
  dsimp only [marginCompletion]
  split_ifs <;> exact ⟨rfl, rfl⟩

/-- The tracker after a completion (R146 to R149, R151). -/
theorem completeRound_track {s : State} {r : Round} {roll : Roll} {f : RoundFigures} (rising : Ascending s.track.held)
    (round : s.ctl.round = some r) (rolled : s.track.roll = some roll) (formed : s.disp.figures = some f) :
    let t := completeRound s
    let credit := credited (roundCredits s roll f)
    t.track.held = [] ∧ t.track.roll = none ∧ t.track.reported = s.track.reported ∧
    (∀ n, tableFind t.track.current n = (tableFind s.track.current n).map fun a =>
      if a.slot = roll.slot ∧ (tableFind s.track.held n).map Accumulator.slot ≠ some roll.slot then credit n a else a) ∧
    t.track.queue = recordsEmitted s
      (s.track.held.map fun p => (p.1, if p.2.slot = roll.slot then credit p.1 p.2 else p.2)) s.track.queue ∧
    (t.links.tl.notices.records = true ↔
      s.links.tl.notices.records = true ∨ (s.track.queue = [] ∧ t.track.queue ≠ [])) := by
  intro t credit
  set w : State := { s with ctl := { s.ctl with failedMask := r.failed, round := none } } with hw
  have done : t = marginCompletion (trackCompletion w) := completeRound_eq round
  have credits := trackCompletion_credits (s := w) rolled formed
  have kept := slotKept_roundCredits w roll f
  obtain ⟨track, flag⟩ := marginCompletion_track (trackCompletion w)
  have held : (creditAll roll.slot (roundCredits w roll f) w.track).held = _ := held_creditAll kept rising
  rw [held] at credits
  have tracker : t.track = { trackCredited w roll f with
      queue := recordsEmitted s (s.track.held.map fun p =>
        (p.1, if p.2.slot = roll.slot then credit p.1 p.2 else p.2)) s.track.queue } := by
    rw [done, track, credits, queued_track]
    rfl
  have accounts : AccountsKept s.track (creditAll roll.slot (roundCredits w roll f) s.track) := ascending_creditAll ..
  rw [tracker]
  refine ⟨rfl, rfl, accounts.1.2.2, fun n => (find_creditAll kept w.track n).2, rfl, ?_⟩
  rw [done, flag, credits, records_queued]
  have queue : (trackCredited w roll f).queue = s.track.queue := accounts.1.1
  show _ ∨ ((trackCredited w roll f).queue = [] ∧ _) ↔ _
  rw [queue]
  rfl

/-! ### The margin's clauses -/

theorem worse_eq (a b : MarginState) : worse a b =
    if a = .short ∨ b = .short then .short else if a = .thin ∨ b = .thin then .thin else .sound := by
  cases a <;> cases b <;> rfl

theorem lineAfter_latched (line : Bool) (old new : MarginState) : lineAfter .latched line old new =
    (line || decide (new ≠ old ∧ worse new old = new)) := by
  cases old <;> cases new <;> cases line <;> rfl

theorem countsUpProduct_eq : countsUpProduct = fun p => p == .fsr || p == .rsu := by
  funext p
  cases p <;> rfl

theorem countsDownProduct_eq : countsDownProduct = fun p => p == .fsr || p == .rsd := by
  funext p
  cases p <;> rfl

theorem computeDir_clauses (m : MarginMonitor) (d : MarginDir) (obligation deliverable : Nat) :
    let x := computeDir m d obligation deliverable
    (x.obligation = 0 → x.ratio = 9999 ∧ x.deliverable = 0) ∧
      (x.obligation ≠ 0 → x.ratio = min 9999 (x.deliverable * 1000 / x.obligation)) := by
  intro x
  refine ⟨fun none => ?_, fun some => ?_⟩
  · exact ⟨if_pos none, if_pos none⟩
  · exact if_neg some

/-- Settles O22: the round, the margin computed from the state it completes in, and the accounts it credits. -/
theorem roundCompletionComputesTheMargin : Obligations.RoundCompletionComputesTheMargin := by
  refine ⟨?_, ?_⟩
  · intro s r round t m up down active sold longest live held moved worst
    have side := roundSide_completeRound s
    obtain ⟨margin, raised, still⟩ := completeRound_margin round
    have margin : t.margin = computeMargin s := margin
    have up_eq : countsUpProduct = up := countsUpProduct_eq
    have down_eq : countsDownProduct = down := countsDownProduct_eq
    have moves (b : MarginState) (x : Nat) : moveState m.warn m.short m.hysteresis b x = moved b x := by
      cases b <;> rfl
    rw [margin]
    refine ⟨(completeRound_round round).1, side.fleet, side.book, side.eval, side.disp, side.notices, ?_, ?_,
      fun T long sells => ?_, fun T long sells => ?_, ?_, ?_, ?_, worse_eq _ _, fun level => ?_, fun latched => ?_, rfl, raised, still⟩
    · show obligationOf s countsUpProduct = _
      rw [up_eq]
      exact obligationOf_eq s up
    · show obligationOf s countsDownProduct = _
      rw [down_eq]
      exact obligationOf_eq s down
    · have endurance : enduranceOver s up = T := enduranceOver_eq long.1 long.2
      have some : obligationOf s countsUpProduct ≠ 0 := by
        rw [up_eq, obligationOf_eq]
        exact sells
      refine (if_neg some).trans ?_
      rw [up_eq, endurance]
      rfl
    · have endurance : enduranceOver s down = T := enduranceOver_eq long.1 long.2
      have some : obligationOf s countsDownProduct ≠ 0 := by
        rw [down_eq, obligationOf_eq]
        exact sells
      refine (if_neg some).trans ?_
      rw [down_eq, endurance]
      rfl
    · rintro d (rfl | rfl) <;> exact computeDir_clauses ..
    · exact moves _ _
    · exact moves _ _
    · show lineAfter m.mode m.asserted m.overall _ = _
      rw [level]
      exact if_congr eq_comm rfl rfl
    · show lineAfter m.mode m.asserted m.overall _ = _
      have line := lineAfter_latched m.asserted m.overall (computeMargin s).overall
      rw [worse_eq (computeMargin s).overall] at line
      rw [latched]
      exact line
  · intro s r roll f tables round rolled formed t requested delivered short credit
    have track := completeRound_track tables.2.2.2.2.2.1 round rolled formed
    have same : credited (roundCredits s roll f) = credit := by
      funext n a
      have requests : requestedOf roll f n = requested n :=
        List.map_congr_left fun e _ => by cases e.product <;> rfl
      rw [credited_roundCredits, requests]
      rfl
    rw [same] at track
    exact track

end Sys2Proof.Machine

/-! PROOF. The accounts of a slot at its boundary: those it closes are held or become delivery records, and every ACTIVE
entry gets a fresh one (R144, R148, R149). -/

namespace Sys2Proof.Machine

/-! ### The accounts a boundary closes (R149) -/

/-- The round in flight began in the slot that the boundary into `t` ends. -/
abbrev RoundOfEnded (t : Nat) (s : State) : Prop :=
  s.ctl.round.isSome = true ∧ (s.track.roll.map fun r => r.slot + 1) = some t

/-- Accounts taken out of the current ones. -/
def takenOut (c : List (Nat × Accumulator)) (s : State) : State :=
  { s with track := { s.track with current := c.foldl (fun m p => tableErase m p.1) s.track.current } }

/-- Accounts set aside for the round in flight. -/
def setAside (c : List (Nat × Accumulator)) (s : State) : State :=
  { s with track := { s.track with
      current := c.foldl (fun m p => tableErase m p.1) s.track.current
      held := c.foldl (fun m p => tableInsert m p.1 p.2) s.track.held } }

theorem closeAccumulator_keeps {t : Nat} {p : Nat × Accumulator} (h : p.2.slot + 1 ≠ t) (s : State) :
    closeAccumulator t s p = s := if_neg h

theorem closeAccumulator_held {t : Nat} {s : State} {p : Nat × Accumulator} (h : p.2.slot + 1 = t)
    (waits : RoundOfEnded t s) : closeAccumulator t s p = setAside [p] s := by
  obtain ⟨flight, began⟩ := waits
  obtain ⟨r, hr⟩ := Option.isSome_iff_exists.1 flight
  obtain ⟨roll, hroll, slot⟩ := Option.map_eq_some_iff.1 began
  have own : roll.slot = p.2.slot := by omega
  simp [closeAccumulator, h, hr, hroll, own, setAside]

theorem closeAccumulator_emitted {t : Nat} {s : State} {p : Nat × Accumulator} (h : p.2.slot + 1 = t)
    (passes : ¬RoundOfEnded t s) :
    closeAccumulator t s p = queued (emitted s p s.track.queue) (takenOut [p] s) := by
  rw [closeAccumulator, if_pos h]
  refine Eq.trans ?_ (emitRecord_queued p (takenOut [p] s))
  dsimp only
  split
  next roll hr hroll =>
    have other : roll.slot ≠ p.2.slot := fun e => passes ⟨by rw [hr]; rfl, by rw [hroll, Option.map_some, e, h]⟩
    exact if_neg other
  next => rfl

theorem takenOut_queued (c : List (Nat × Accumulator)) (q : List DeliveryRecord) (s : State) :
    takenOut c (queued q s) = queued q (takenOut c s) := by
  by_cases raises : s.track.queue = [] ∧ q ≠ []
  · have here : queued q s = _ := if_pos raises
    have there : queued q (takenOut c s) = _ := if_pos (show (takenOut c s).track.queue = [] ∧ q ≠ [] from raises)
    rw [here, there]
    rfl
  · have here : queued q s = _ := if_neg raises
    have there : queued q (takenOut c s) = _ :=
      if_neg (show ¬((takenOut c s).track.queue = [] ∧ q ≠ []) from raises)
    rw [here, there]
    rfl

theorem foldl_closeAccumulator_held {t : Nat} (l : List (Nat × Accumulator)) {s : State} (waits : RoundOfEnded t s) :
    l.foldl (closeAccumulator t) s = setAside (l.filter fun p => p.2.slot + 1 = t) s := by
  induction l generalizing s with
  | nil => rfl
  | cons p l ih =>
    rw [List.foldl_cons, List.filter_cons]
    by_cases h : p.2.slot + 1 = t
    · rw [closeAccumulator_held h waits, ih (s := setAside [p] s) waits, if_pos (decide_eq_true h)]
      rfl
    · rw [closeAccumulator_keeps h, ih waits, if_neg (by simpa using h)]

theorem foldl_closeAccumulator_emitted {t : Nat} (l : List (Nat × Accumulator)) {s : State}
    (passes : ¬RoundOfEnded t s) :
    l.foldl (closeAccumulator t) s = queued (recordsEmitted s (l.filter fun p => p.2.slot + 1 = t) s.track.queue)
      (takenOut (l.filter fun p => p.2.slot + 1 = t) s) := by
  induction l generalizing s with
  | nil => exact (queued_self s).symm
  | cons p l ih =>
    rw [List.foldl_cons, List.filter_cons]
    by_cases h : p.2.slot + 1 = t
    · obtain ⟨_, frame⟩ := queued_frame (emitted s p s.track.queue) (takenOut [p] s)
      have passes' : ¬RoundOfEnded t (queued (emitted s p s.track.queue) (takenOut [p] s)) := by
        rw [frame]
        exact passes
      have same : recordsEmitted (queued (emitted s p s.track.queue) (takenOut [p] s)) = recordsEmitted s :=
        recordsEmitted_congr (by rw [frame]; rfl)
      rw [closeAccumulator_emitted h passes, ih passes', if_pos (decide_eq_true h), same, takenOut_queued, queued_track,
        recordsEmitted_cons]
      exact queued_queued emitted_ne_nil recordsEmitted_ne_nil
    · rw [closeAccumulator_keeps h, ih passes, if_neg (by simpa using h)]

/-- The accounts that the boundary into the current slot closes. -/
def closedAccounts (s : State) : List (Nat × Accumulator) := s.track.current.filter fun p => p.2.slot + 1 = s.time.slot

theorem boundaryClosed_held {s : State} (waits : RoundOfEnded s.time.slot s) :
    boundaryClosed s = setAside (closedAccounts s) (noteBoundary s) := by
  have folded := foldl_closeAccumulator_held (t := s.time.slot) s.track.current (s := noteBoundary s)
    (by rw [noteBoundary_eq]; exact waits)
  refine Eq.trans ?_ folded
  rw [boundaryClosed, closeAccumulators, noteBoundary_eq]

theorem boundaryClosed_emitted {s : State} (passes : ¬RoundOfEnded s.time.slot s) :
    boundaryClosed s = queued (recordsEmitted s (closedAccounts s) s.track.queue)
      (takenOut (closedAccounts s) (noteBoundary s)) := by
  have folded := foldl_closeAccumulator_emitted (t := s.time.slot) s.track.current (s := noteBoundary s)
    (by rw [noteBoundary_eq]; exact passes)
  have same : recordsEmitted (noteBoundary s) = recordsEmitted s := recordsEmitted_congr (by rw [noteBoundary_eq])
  rw [same] at folded
  refine Eq.trans ?_ (folded.trans ?_)
  · rw [boundaryClosed, closeAccumulators, noteBoundary_eq]
  · rw [noteBoundary_eq]
    rfl

theorem current_boundaryClosed (s : State) : (boundaryClosed s).track.current =
    (closedAccounts s).foldl (fun m p => tableErase m p.1) s.track.current := by
  by_cases waits : RoundOfEnded s.time.slot s
  · rw [boundaryClosed_held waits, noteBoundary_eq]
    rfl
  · rw [boundaryClosed_emitted waits, queued_track, noteBoundary_eq]
    rfl

theorem held_boundaryClosed (s : State) : (boundaryClosed s).track.held = if RoundOfEnded s.time.slot s then
    (closedAccounts s).foldl (fun m p => tableInsert m p.1 p.2) s.track.held else s.track.held := by
  split_ifs with waits
  · rw [boundaryClosed_held waits, noteBoundary_eq]
    rfl
  · rw [boundaryClosed_emitted waits, queued_track, noteBoundary_eq]
    rfl

/-! ### Tables written number by number -/

theorem tableFind_foldl_erase {α : Type} (c : List (Nat × α)) {m : List (Nat × α)} (rising : Ascending m) (n : Nat) :
    tableFind (c.foldl (fun m p => tableErase m p.1) m) n = if n ∈ c.map Prod.fst then none else tableFind m n := by
  induction c generalizing m with
  | nil => rfl
  | cons p c ih =>
    rw [List.foldl_cons, ih (ascending_tableErase rising _), tableFind_tableErase rising, List.map_cons]
    by_cases here : n = p.1
    · simp [here]
    · simp only [here, if_false, List.mem_cons, false_or]

theorem tableFind_foldl_insert {α : Type} {c : List (Nat × α)} (rising : Ascending c) (m : List (Nat × α)) (n : Nat) :
    tableFind (c.foldl (fun m p => tableInsert m p.1 p.2) m) n = (tableFind c n).or (tableFind m n) := by
  induction c generalizing m with
  | nil => rfl
  | cons p c ih =>
    obtain ⟨above, rising⟩ := ascending_cons.1 rising
    rw [List.foldl_cons, ih rising, tableFind_tableInsert]
    by_cases here : n = p.1
    · rw [here, tableFind_none_of_lt above]
      simp [tableFind]
    · simp [tableFind, here, Ne.symm here]

theorem mem_closedAccounts {s : State} (rising : Ascending s.track.current) (n : Nat) :
    n ∈ (closedAccounts s).map Prod.fst ↔ ∃ a, tableFind s.track.current n = some a ∧ a.slot + 1 = s.time.slot := by
  constructor
  · intro h
    obtain ⟨p, hp, rfl⟩ := List.mem_map.1 h
    obtain ⟨listed, closes⟩ := List.mem_filter.1 hp
    exact ⟨p.2, tableFind_of_mem rising listed, of_decide_eq_true closes⟩
  · rintro ⟨a, found, closes⟩
    exact List.mem_map.2 ⟨(n, a), List.mem_filter.2 ⟨tableFind_mem found, decide_eq_true closes⟩, rfl⟩

theorem ascending_closedAccounts {s : State} (rising : Ascending s.track.current) : Ascending (closedAccounts s) :=
  ascending_sublist rising List.filter_sublist

theorem tableFind_closedAccounts {s : State} (rising : Ascending s.track.current) {n : Nat} {a : Accumulator}
    (found : tableFind s.track.current n = some a) (closes : a.slot + 1 = s.time.slot) :
    tableFind (closedAccounts s) n = some a :=
  tableFind_of_mem (ascending_closedAccounts rising)
    (List.mem_filter.2 ⟨tableFind_mem found, decide_eq_true closes⟩)

theorem tableFind_closedAccounts_none {s : State} (rising : Ascending s.track.current) {n : Nat}
    (stays : ∀ a, tableFind s.track.current n = some a → a.slot + 1 ≠ s.time.slot) :
    tableFind (closedAccounts s) n = none := by
  refine Option.eq_none_iff_forall_ne_some.2 fun a found => ?_
  obtain ⟨b, hb, closes⟩ := (mem_closedAccounts rising n).1 (List.mem_map_of_mem (f := Prod.fst) (tableFind_mem found))
  exact stays b hb closes

/-! ### The boundary's tables leave the accounts, and the ACTIVE entries get fresh ones (R144) -/

/-- What the transitions, the freeing and the drain each keep, the tables of a boundary keep. -/
theorem boundaryTables_keeps {P : State → Prop} {t : Nat} (freed : ∀ u, P u → P (freeEnded t u))
    (booked : ∀ u, P u → P (bookBoundary t u)) (drained : ∀ u, P u → P (drainQueue u)) {s : State} (h : P s) :
    P (boundaryTables t s) := by
  unfold boundaryTables
  split_ifs
  · exact freed _ (booked _ h)
  · rcases Config.drainOrder s.freeTick with ⟨_ | _, _ | _⟩
    · exact drained _ (freed _ (booked _ h))
    · exact freed _ (drained _ (booked _ h))
    · exact booked _ (drained _ (freed _ h))
    · exact freed _ (booked _ (drained _ h))

/-- One entry's transition leaves everything but the Book, the records and the notices. -/
theorem boundaryEntry_frame (t : Nat) (s : State) (p : Nat × Entry) : ∃ book shares links,
    boundaryEntry t s p = { s with book := book, shares := shares, links := links } := by
  cases h : boundaryState t s.time.gate p.2 with
  | none => exact ⟨_, _, _, boundaryEntry_of_none h⟩
  | some st =>
    rw [boundaryEntry_of_some h, placeChange, raiseOn_eq_setLinks]
    exact ⟨_, _, _, rfl⟩

theorem bookBoundary_frame (t : Nat) (s : State) : ∃ book shares links,
    bookBoundary t s = { s with book := book, shares := shares, links := links } := by
  unfold bookBoundary
  suffices fold : ∀ (l : List (Nat × Entry)) (u : State), ∃ book shares links,
      l.foldl (boundaryEntry t) u = { u with book := book, shares := shares, links := links } from fold _ s
  intro l
  induction l with
  | nil => exact fun u => ⟨_, _, _, rfl⟩
  | cons p l ih =>
    intro u
    obtain ⟨_, _, _, first⟩ := boundaryEntry_frame t u p
    obtain ⟨_, _, _, rest⟩ := ih (boundaryEntry t u p)
    rw [List.foldl_cons, rest, first]
    exact ⟨_, _, _, rfl⟩

theorem drainOne_frame (s : State) (q : QueuedSetting) : ∃ fleet eval,
    drainOne s q = { s with fleet := fleet, eval := eval } := by
  have applied : ∃ fleet eval, applySetting q.unit q.setting s = { s with fleet := fleet, eval := eval } := by
    have written : ∃ fleet eval, withSetting q.unit q.setting s = { s with fleet := fleet, eval := eval } := by
      rw [withSetting, disturb_frame]
      exact ⟨_, _, rfl⟩
    obtain ⟨_, _, written⟩ := written
    rw [applySetting_eq]
    split_ifs
    · rw [contributionLost_frame, written]
      exact ⟨_, _, rfl⟩
    · rw [written]
      exact ⟨_, _, rfl⟩
    · exact ⟨_, _, written⟩
  obtain ⟨_, _, applied⟩ := applied
  dsimp only [drainOne]
  split_ifs
  · rw [applied]
    exact ⟨_, _, rfl⟩
  · exact ⟨_, _, applied⟩
  · exact ⟨_, _, rfl⟩

theorem foldl_drainOne_frame (l : List QueuedSetting) (s : State) : ∃ fleet eval,
    l.foldl drainOne s = { s with fleet := fleet, eval := eval } := by
  induction l generalizing s with
  | nil => exact ⟨_, _, rfl⟩
  | cons q l ih =>
    obtain ⟨_, _, first⟩ := drainOne_frame s q
    obtain ⟨_, _, rest⟩ := ih (drainOne s q)
    rw [List.foldl_cons, rest, first]
    exact ⟨_, _, rfl⟩

theorem drainQueue_frame (s : State) : ∃ fleet eval,
    drainQueue s = { s with fleet := fleet, eval := eval, queue := [] } := by
  obtain ⟨_, _, frame⟩ := foldl_drainOne_frame s.queue s
  unfold drainQueue
  rw [frame]
  exact ⟨_, _, rfl⟩

theorem boundaryTables_track (t : Nat) (s : State) : (boundaryTables t s).track = s.track := by
  refine boundaryTables_keeps (P := fun u => u.track = s.track) (fun u h => h) (fun u h => ?_) (fun u h => ?_) rfl
  · obtain ⟨_, _, _, frame⟩ := bookBoundary_frame t u
    rw [frame]
    exact h
  · obtain ⟨_, _, frame⟩ := drainQueue_frame u
    rw [frame]
    exact h

/-- The fresh accounts of the ACTIVE entries among `l`. -/
def opened (t : Nat) (l : List (Nat × Entry)) (m : List (Nat × Accumulator)) : List (Nat × Accumulator) :=
  l.foldl (fun m p => if p.2.state = .active then tableInsert m p.1 (freshAccumulator t) else m) m

theorem openAccumulators_eq (t : Nat) (s : State) : openAccumulators t s =
    { s with track := { s.track with current := opened t s.book.entries s.track.current } } := by
  unfold openAccumulators opened
  generalize s.book.entries = l
  induction l generalizing s with
  | nil => rfl
  | cons p l ih =>
    rw [List.foldl_cons, List.foldl_cons, ih]
    split_ifs <;> rfl

open Classical in
theorem tableFind_opened (t : Nat) (l : List (Nat × Entry)) (m : List (Nat × Accumulator)) (n : Nat) :
    tableFind (opened t l m) n =
      if ∃ e, (n, e) ∈ l ∧ e.state = .active then some (freshAccumulator t) else tableFind m n := by
  induction l generalizing m with
  | nil => simp [opened]
  | cons p l ih =>
    refine (ih _).trans ?_
    by_cases later : ∃ e, (n, e) ∈ l ∧ e.state = .active
    · obtain ⟨e, he, active⟩ := later
      rw [if_pos ⟨e, he, active⟩, if_pos ⟨e, List.mem_cons_of_mem _ he, active⟩]
    · have here : (∃ e, (n, e) ∈ p :: l ∧ e.state = .active) ↔ n = p.1 ∧ p.2.state = .active := by
        constructor
        · rintro ⟨e, he, active⟩
          rcases List.mem_cons.1 he with rfl | he
          · exact ⟨rfl, active⟩
          · exact absurd ⟨e, he, active⟩ later
        · rintro ⟨rfl, active⟩
          exact ⟨p.2, List.mem_cons_self, active⟩
      rw [if_neg later, if_congr here rfl rfl]
      by_cases active : p.2.state = .active
      · simp only [active, if_true, and_true, tableFind_tableInsert]
      · simp only [active, if_false, and_false]

/-! ### A boundary and a completion on the accounts -/

theorem track_slotBoundary (s : State) : (slotBoundary s).track = { (boundaryClosed s).track with
    current := opened s.time.slot (slotBoundary s).book.entries (boundaryClosed s).track.current } := by
  rw [slotBoundary_eq, openAccumulators_eq]
  dsimp only
  rw [boundaryTables_track]

open Classical in
theorem tableFind_slotBoundary_current {s : State} (entries : Ascending s.book.entries)
    (accounts : Ascending s.track.current) (n : Nat) :
    tableFind (slotBoundary s).track.current n =
      if ∃ e, entryOf (slotBoundary s) n = some e ∧ e.state = .active then some (freshAccumulator s.time.slot)
      else if ∃ a, tableFind s.track.current n = some a ∧ a.slot + 1 = s.time.slot then none
      else tableFind s.track.current n := by
  have rising := (boundaryTaken_slotBoundary entries).rising
  have listed : (∃ e, (n, e) ∈ (slotBoundary s).book.entries ∧ e.state = .active) ↔
      ∃ e, entryOf (slotBoundary s) n = some e ∧ e.state = .active :=
    exists_congr fun e => and_congr_left fun _ => ⟨tableFind_of_mem rising, tableFind_mem⟩
  rw [track_slotBoundary]
  dsimp only
  rw [tableFind_opened, current_boundaryClosed, tableFind_foldl_erase _ accounts, if_congr listed rfl rfl,
    if_congr (mem_closedAccounts accounts n) rfl rfl]

theorem held_slotBoundary (s : State) : (slotBoundary s).track.held = if RoundOfEnded s.time.slot s then
    (closedAccounts s).foldl (fun m p => tableInsert m p.1 p.2) s.track.held else s.track.held := by
  rw [track_slotBoundary]
  exact held_boundaryClosed s

/-- An entry of a roll that lists it once is credited its own energy. -/
theorem creditRequested_alone {roll : Roll} {f : RoundFigures} {e : RollEntry}
    (once : (roll.entries.map RollEntry.entry).Nodup) (h : e ∈ roll.entries) (a : Accumulator) :
    credited (requestedCredits roll f) e.entry a = { a with
      requestedUp := a.requestedUp + (e.awarded * fractionOf f e.product * roll.period : Int).toNat
      requestedDown := a.requestedDown + (-(e.awarded * fractionOf f e.product * roll.period : Int)).toNat } := by
  have own : roll.entries.filter (fun x => x.entry = e.entry) = [e] := by
    obtain ⟨before, after, split⟩ := List.append_of_mem h
    rw [split, List.map_append, List.map_cons, List.nodup_append] at once
    obtain ⟨-, later, apart⟩ := once
    have first : ∀ x ∈ before, x.entry ≠ e.entry := fun x hx =>
      apart x.entry (List.mem_map_of_mem hx) e.entry List.mem_cons_self
    have last : ∀ x ∈ after, x.entry ≠ e.entry := fun x hx same =>
      (List.nodup_cons.1 later).1 (same ▸ List.mem_map_of_mem hx)
    rw [split, List.filter_append, List.filter_cons, List.filter_eq_nil_iff.2 fun x hx => by simpa using first x hx,
      List.filter_eq_nil_iff.2 fun x hx => by simpa using last x hx]
    simp
  rw [requestedCredits, credited_requested, own]
  simp

/-- An account that no credit reaches stays as it is. -/
theorem map_untouched {α : Type} {o : Option α} {p : α → Prop} [DecidablePred p] {g : α → α}
    (h : ∀ a, o = some a → ¬p a) : o.map (fun a => if p a then g a else a) = o := by
  cases o with
  | none => rfl
  | some a => exact congrArg some (if_neg (h a rfl))

/-- Settles O41: the closed accounts leave the current ones, held while their round is in flight, and the ACTIVE
entries' fresh ones are written over them; a completion's credits reach the held account before the current one. -/
theorem accountsFollowSlotsAndRounds : Obligations.AccountsFollowSlotsAndRounds := by
  refine ⟨fun s tables => ?_, fun roll f k e a once listed => ?_⟩
  · obtain ⟨-, -, -, entries, accounts, -⟩ := tables
    intro t b open_
    have current (n : Nat) := tableFind_slotBoundary_current entries accounts n
    refine ⟨fun n active => (current n).trans (if_pos active), fun n idle a => ?_, fun n a flight own found closes => ?_,
      fun n stays => ?_, fun none => ?_⟩
    · rw [current n, if_neg idle]
      split_ifs with closed
      · obtain ⟨c, found, ends⟩ := closed
        refine ⟨fun h => (nomatch h), fun ⟨h, other⟩ => absurd ?_ other⟩
        obtain rfl : c = a := Option.some.inj (found.symm.trans h)
        exact ends
      · exact ⟨fun h => ⟨h, fun ends => closed ⟨a, h, ends⟩⟩, And.left⟩
    · have waits : RoundOfEnded s.time.slot s := by
        obtain ⟨roll, hroll, slot⟩ := Option.map_eq_some_iff.1 own
        exact ⟨flight, by rw [hroll, Option.map_some, slot, closes]⟩
      rw [held_slotBoundary, if_pos waits, tableFind_foldl_insert (ascending_closedAccounts accounts),
        tableFind_closedAccounts accounts found closes, Option.some_or]
    · rw [held_slotBoundary]
      split_ifs
      · rw [tableFind_foldl_insert (ascending_closedAccounts accounts), tableFind_closedAccounts_none accounts stays,
          Option.none_or]
      · rfl
    · exact (held_slotBoundary s).trans (if_neg fun waits => by simp [RoundOfEnded, none] at waits)
  · intro out fraction energy credited
    have kept : ∀ c ∈ requestedCredits roll f, SlotKept c := fun c hc =>
      let ⟨_, _, e⟩ := List.mem_map.1 hc
      e ▸ slotKept_addRequested _ _
    obtain ⟨held, current⟩ := find_creditAll (slot := roll.slot) kept k e.entry
    rw [← creditRequested_eq] at held current
    have own : Machine.credited (requestedCredits roll f) e.entry a = credited := by
      rw [creditRequested_alone once listed]
      have same : fractionOf f e.product = fraction := by
        dsimp only [fraction]
        cases e.product <;> rfl
      have part (x : Int) : (max 0 x).toNat = x.toNat := by omega
      simp only [credited, energy, same, part]
    refine ⟨fun found slot => ?_, fun apart found slot => ?_, fun apart other => ?_⟩
    · have first : heldSlot k e.entry = some roll.slot := by rw [heldSlot, found, Option.map_some, slot]
      refine ⟨?_, ?_⟩
      · rw [held, found, Option.map_some, if_pos slot, own]
      · rw [current, map_untouched fun b _ h => h.2 first]
    · have free : heldSlot k e.entry ≠ some roll.slot := fun h => by
        obtain ⟨b, hb, slot⟩ := Option.map_eq_some_iff.1 h
        exact apart b hb slot
      refine ⟨?_, ?_⟩
      · rw [current, found, Option.map_some, if_pos ⟨slot, free⟩, own]
      · rw [held, map_untouched fun b hb h => apart b hb h]
    · exact ⟨by rw [current, map_untouched fun b hb h => other b hb h.1],
        by rw [held, map_untouched fun b hb h => apart b hb h]⟩

end Sys2Proof.Machine

/-! PROOF. What a slot boundary drains, lists and emits beside the entries' transitions (R74 to R76, R87, R88, R149,
R151, R162, R164). -/

namespace Sys2Proof.Machine

/-! ### One queued setting (R161, R162, R164) -/

theorem drainOne_outside {s : State} {q : QueuedSetting} (h : inOriginMap s q.origin q.unit = false) :
    drainOne s q = s := if_neg (by simp [h])

theorem drainOne_inside {s : State} {q : QueuedSetting} (h : inOriginMap s q.origin q.unit = true) :
    drainOne s q =
      if limitsChanged (unitOf s q.unit) (unitOf (applySetting q.unit q.setting s) q.unit) &&
          holdsRecord (applySetting q.unit q.setting s) q.unit then
        markOnUnits (fun i => i == q.unit) (applySetting q.unit q.setting s)
      else applySetting q.unit q.setting s := if_pos h

theorem contributing_applySetting (i : Nat) (x : Setting) (s : State) :
    contributing (applySetting i x s) i = contributing (withSetting i x s) i := by
  have frame : ∃ eval, applySetting i x s = { withSetting i x s with eval := eval } := by
    rw [applySetting_eq]
    split_ifs
    · exact ⟨_, contributionLost_frame ..⟩
    · exact ⟨_, rfl⟩
    · exact ⟨_, rfl⟩
  obtain ⟨_, frame⟩ := frame
  rw [frame]
  rfl

/-- What a value applied marks: the records of a unit that stops to contribute, and uncovered W where it starts. -/
theorem marked_applySetting (i : Nat) (x : Setting) (s : State) :
    Marked s (applySetting i x s) (fun n e =>
      (contributing s i = true ∧ contributing (applySetting i x s) i = false ∧ ∃ r ∈ s.shares, r.entry = n ∧ r.unit = i) ∨
      (contributing s i = false ∧ contributing (applySetting i x s) i = true ∧ e.uncovered ≠ 0)) (fun k => k == i) := by
  have first := marked_withSetting i x s
  rw [contributing_applySetting]
  rw [applySetting_eq]
  by_cases before : contributing s i = true <;> by_cases after : contributing (withSetting i x s) i = true
  · simp only [before, after, Bool.not_true, Bool.and_false, Bool.and_true, Bool.false_eq_true, if_false]
    exact first.congr (fun n e => by simp) (fun k => rfl)
  · simp only [before, Bool.not_eq_true _ ▸ after, Bool.not_false, Bool.and_true, if_true]
    refine (first.trans (marked_contributionLost i _)).congr (fun n e => ?_) (fun k => by simp)
    rw [first.shares]
    simp
  · rw [Bool.not_eq_true] at before
    simp only [before, after, Bool.not_false, Bool.false_and, Bool.true_and, Bool.false_eq_true, if_false, if_true]
    exact (first.trans (marked_contributionGained _)).congr (fun n e => by simp) (fun k => by simp)
  · rw [Bool.not_eq_true] at before after
    simp only [before, after, Bool.not_false, Bool.false_and, Bool.and_false, Bool.false_eq_true, if_false]
    exact first.congr (fun n e => by simp) (fun k => rfl)

theorem limitsChanged_iff (u v : UnitRec) :
    limitsChanged u v = true ↔ v.floor ≠ u.floor ∨ v.ceiling ≠ u.ceiling ∨ v.excluded ≠ u.excluded := by
  simp only [limitsChanged, Bool.not_eq_true', Bool.and_eq_false_iff, decide_eq_false_iff_not, or_assoc, ne_comm]

theorem holdsRecord_iff (s : State) (i : Nat) : holdsRecord s i = true ↔ ∃ r ∈ s.shares, r.unit = i := by
  simp [holdsRecord]

theorem drainOne_frame_of_applySetting {s : State} {q : QueuedSetting} (h : inOriginMap s q.origin q.unit = true) :
    ∃ eval, drainOne s q = { applySetting q.unit q.setting s with eval := eval } := by
  rw [drainOne_inside h]
  split_ifs
  · exact ⟨_, rfl⟩
  · exact ⟨_, rfl⟩

theorem unitOf_drainOne {s : State} {q : QueuedSetting} (rising : Ascending s.fleet.units)
    (h : inOriginMap s q.origin q.unit = true) (i : Nat) : unitOf (drainOne s q) i =
      if i = q.unit then settingApplied (onRunningChannel s q.unit) q.setting (unitOf s q.unit) else unitOf s i := by
  obtain ⟨_, frame⟩ := drainOne_frame_of_applySetting h
  rw [frame]
  exact unitOf_applySetting rising ..

/-- A unit stops to contribute by a setting only where that excludes it. -/
theorem limitsChanged_of_lost {s : State} {i : Nat} {x : Setting} (rising : Ascending s.fleet.units)
    (before : contributing s i = true) (after : contributing (applySetting i x s) i = false) :
    limitsChanged (unitOf s i) (settingApplied (onRunningChannel s i) x (unitOf s i)) = true := by
  rw [contributing_applySetting, contributing_withSetting rising] at after
  unfold contributing at before
  refine (limitsChanged_iff ..).2 (.inr (.inr fun same => ?_))
  rw [same, before] at after
  cases after

/-- A drained setting marks as an applied one does, and the records of a unit whose limits or exclusion change. -/
theorem marked_drainOne {s : State} {q : QueuedSetting} (rising : Ascending s.fleet.units)
    (h : inOriginMap s q.origin q.unit = true) :
    Marked s (drainOne s q) (fun n e =>
      (limitsChanged (unitOf s q.unit) (settingApplied (onRunningChannel s q.unit) q.setting (unitOf s q.unit)) = true ∧
        ∃ r ∈ s.shares, r.entry = n ∧ r.unit = q.unit) ∨
      (contributing s q.unit = false ∧ contributing (drainOne s q) q.unit = true ∧ e.uncovered ≠ 0))
      (fun i => i == q.unit) := by
  have applied := marked_applySetting q.unit q.setting s
  have lost := limitsChanged_of_lost (x := q.setting) rising (i := q.unit)
  have same : contributing (drainOne s q) q.unit = contributing (applySetting q.unit q.setting s) q.unit := by
    obtain ⟨_, frame⟩ := drainOne_frame_of_applySetting h
    rw [frame]
    rfl
  have unit : unitOf (applySetting q.unit q.setting s) q.unit =
      settingApplied (onRunningChannel s q.unit) q.setting (unitOf s q.unit) := by
    rw [unitOf_applySetting rising, if_pos rfl]
  rw [same, drainOne_inside h, unit]
  by_cases changed : limitsChanged (unitOf s q.unit)
      (settingApplied (onRunningChannel s q.unit) q.setting (unitOf s q.unit)) = true
  · by_cases holds : holdsRecord (applySetting q.unit q.setting s) q.unit = true
    · rw [if_pos (by simp [changed, holds])]
      refine (applied.trans (marked_markOnUnits (fun i => i == q.unit) _)).congr (fun n e => ?_) (fun k => by simp)
      rw [applied.shares]
      simp only [beq_iff_eq]
      exact ⟨fun h => h.elim (fun h => h.imp (fun ⟨_, _, recorded⟩ => ⟨changed, recorded⟩) id)
        fun recorded => .inl ⟨changed, recorded⟩, fun h => h.elim (fun h => .inr h.2) fun gained => .inl (.inr gained)⟩
    · rw [if_neg (by simp [holds])]
      refine applied.congr (fun n e => ?_) (fun k => rfl)
      have bare : ¬∃ r ∈ s.shares, r.entry = n ∧ r.unit = q.unit := fun ⟨r, hr, _, own⟩ =>
        holds ((holdsRecord_iff ..).2 ⟨r, applied.shares ▸ hr, own⟩)
      simp only [bare, and_false, false_or]
  · rw [if_neg (by simp [changed])]
    refine applied.congr (fun n e => ?_) (fun k => rfl)
    have stays : ¬(contributing s q.unit = true ∧ contributing (applySetting q.unit q.setting s) q.unit = false ∧
        ∃ r ∈ s.shares, r.entry = n ∧ r.unit = q.unit) := fun ⟨before, after, _⟩ => changed (lost before after)
    simp only [stays, changed, Bool.false_eq_true, false_and, false_or]

/-! ### The queue drained (R164) -/

/-- A drained setting leaves the maps and the channels as they are. -/
theorem drainOne_reads (s : State) (q : QueuedSetting) :
    inOriginMap (drainOne s q) = inOriginMap s ∧ onRunningChannel (drainOne s q) = onRunningChannel s := by
  obtain ⟨_, _, frame⟩ := drainOne_frame s q
  rw [frame]
  exact ⟨rfl, rfl⟩

theorem ascending_drainOne {s : State} (rising : Ascending s.fleet.units) (q : QueuedSetting) :
    Ascending (drainOne s q).fleet.units := by
  cases h : inOriginMap s q.origin q.unit with
  | false => rwa [drainOne_outside h]
  | true =>
    obtain ⟨_, frame⟩ := drainOne_frame_of_applySetting h
    rw [frame, applySetting_fleet, withSetting, disturb_frame]
    exact ascending_tableSet rising ..

theorem unitOf_foldl_drainOne (l : List QueuedSetting) {s : State} (rising : Ascending s.fleet.units) (i : Nat) :
    unitOf (l.foldl drainOne s) i = l.foldl (fun u q =>
      if q.unit = i ∧ inOriginMap s q.origin i = true then settingApplied (onRunningChannel s i) q.setting u else u)
      (unitOf s i) := by
  induction l generalizing s with
  | nil => rfl
  | cons q l ih =>
    obtain ⟨maps, channels⟩ := drainOne_reads s q
    rw [List.foldl_cons, List.foldl_cons, ih (ascending_drainOne rising q), maps, channels]
    congr 1
    cases h : inOriginMap s q.origin q.unit with
    | false =>
      rw [drainOne_outside h, if_neg]
      rintro ⟨rfl, inside⟩
      simp [h] at inside
    | true =>
      rw [unitOf_drainOne rising h]
      by_cases own : i = q.unit
      · rw [if_pos own, if_pos ⟨own.symm, own ▸ h⟩, own]
      · rw [if_neg own, if_neg fun both => own both.1.symm]

theorem disturbs_foldl_drainOne (l : List QueuedSetting) {s : State} (rising : Ascending s.fleet.units) :
    Disturbs s (l.foldl drainOne s) (fun i => l.any fun q => q.unit == i && inOriginMap s q.origin i) := by
  induction l generalizing s with
  | nil => exact disturbs_nothing rfl
  | cons q l ih =>
    have first : Disturbs s (drainOne s q) (fun i => q.unit == i && inOriginMap s q.origin i) := by
      cases h : inOriginMap s q.origin q.unit with
      | false =>
        have nothing : (fun i => q.unit == i && inOriginMap s q.origin i) = fun _ => false := funext fun i => by
          by_cases own : q.unit = i
          · rw [← own, h, Bool.and_false]
          · simp [own]
        rw [drainOne_outside h, nothing]
        exact disturbs_nothing rfl
      | true =>
        have own : (fun i => q.unit == i && inOriginMap s q.origin i) = fun i => i == q.unit := funext fun i => by
          by_cases own : q.unit = i
          · rw [← own, h, Bool.and_true]
          · rw [beq_false_of_ne own, beq_false_of_ne (Ne.symm own), Bool.false_and]
        rw [own]
        exact (marked_drainOne rising h).disturbs
    have rest := ih (ascending_drainOne rising q)
    rw [(drainOne_reads s q).1] at rest
    exact first.trans rest

theorem drainQueue_of_empty {s : State} (h : s.queue = []) : drainQueue s = s := by
  unfold drainQueue
  rw [h, List.foldl_nil, ← h]

/-! ### The transitions listed (R74 to R76) -/

/-- On the links the maps stay, and nothing else differs but Book and records. -/
def Tabled (s b : State) : Prop := ∃ book shares links, b = { s with book := book, shares := shares, links := links } ∧
  links.mapA = s.links.mapA ∧ links.mapB = s.links.mapB

theorem Tabled.refl (s : State) : Tabled s s := ⟨_, _, _, rfl, rfl, rfl⟩

theorem Tabled.trans {s t u : State} (h : Tabled s t) (g : Tabled t u) : Tabled s u := by
  obtain ⟨_, _, _, rfl, a, b⟩ := h
  obtain ⟨_, _, _, rfl, c, d⟩ := g
  exact ⟨_, _, _, rfl, c.trans a, d.trans b⟩

theorem tabled_freeEnded (t : Nat) (s : State) : Tabled s (freeEnded t s) := ⟨_, _, _, rfl, rfl, rfl⟩

theorem tabled_boundaryEntry (t : Nat) (s : State) (p : Nat × Entry) : Tabled s (boundaryEntry t s p) := by
  cases h : boundaryState t s.time.gate p.2 with
  | none =>
    rw [boundaryEntry_of_none h]
    exact Tabled.refl s
  | some st =>
    rw [boundaryEntry_of_some h, placeChange, raiseOn_eq_setLinks]
    exact ⟨_, _, _, rfl, rfl, rfl⟩

theorem tabled_bookBoundary (t : Nat) (s : State) : Tabled s (bookBoundary t s) := by
  unfold bookBoundary
  generalize s.book.entries = l
  induction l generalizing s with
  | nil => exact Tabled.refl s
  | cons p l ih => exact (tabled_boundaryEntry t s p).trans (ih _)

/-- The entries that change state at a boundary (R71 to R73). -/
theorem boundaryState_isSome_iff (t g : Nat) (e : Entry) : (boundaryState t g e).isSome = true ↔
    (e.first = t + g ∧ (e.state = .offered ∨ e.state = .awarded)) ∨ (e.first = t ∧ e.state = .locked) ∨
      (lastSlot e + 1 = t ∧ e.state = .active) := by
  unfold boundaryState
  split_ifs <;> simp_all

theorem placeMember_withEntries (n : Nat) (b : Bool) (k : Book) (x : List (Nat × Entry)) :
    placeMember n b { k with entries := x } = { placeMember n b k with entries := x } := by
  unfold placeMember
  dsimp only
  split_ifs <;> rfl

/-- Entries placed on the change list in their order, with cause STATE. -/
def placed (c : List (Nat × Entry)) (k : Book) : Book := c.foldl (fun k p => placeMember p.1 true k) k

theorem placed_withEntries (c : List (Nat × Entry)) (k : Book) (x : List (Nat × Entry)) :
    placed c { k with entries := x } = { placed c k with entries := x } := by
  induction c generalizing k with
  | nil => rfl
  | cons p c ih => exact (congrArg (placed c) (placeMember_withEntries ..)).trans (ih _)

/-- An entry that changes state is placed on the change list, and ENTRY raised. -/
theorem boundaryEntry_listed {t : Nat} {s : State} {p : Nat × Entry} {st : EntryState}
    (h : boundaryState t s.time.gate p.2 = some st) :
    { (boundaryEntry t s p).book with entries := s.book.entries } = placeMember p.1 true s.book ∧
    (boundaryEntry t s p).links.tl.notices.entry = true ∧
    (boundaryEntry t s p).links.tl.notices.records = s.links.tl.notices.records := by
  rw [boundaryEntry_of_some h, placeChange]
  refine ⟨?_, rfl, rfl⟩
  have still : placeMember p.1 true { s.book with entries := tableInsert s.book.entries p.1 (inState st p.2) } =
      { placeMember p.1 true s.book with entries := tableInsert s.book.entries p.1 (inState st p.2) } :=
    placeMember_withEntries ..
  rw [raiseOn_book]
  refine (congrArg (fun k : Book => { k with entries := s.book.entries }) still).trans ?_
  dsimp only
  rw [← placeMember_withEntries]

/-- The transitions in ascending number list the entries that change state, and raise ENTRY for them alone. -/
theorem foldl_boundaryEntry_listed (t : Nat) (l : List (Nat × Entry)) (s : State) :
    let c := l.filter fun p => (boundaryState t s.time.gate p.2).isSome
    let b := l.foldl (boundaryEntry t) s
    { b.book with entries := s.book.entries } = placed c s.book ∧
    (b.links.tl.notices.entry = true ↔ c ≠ [] ∨ s.links.tl.notices.entry = true) ∧
    b.links.tl.notices.records = s.links.tl.notices.records := by
  induction l generalizing s with
  | nil => exact ⟨rfl, by simp, rfl⟩
  | cons p l ih =>
    obtain ⟨book, entry, records⟩ := ih (boundaryEntry t s p)
    rw [boundaryEntry_time] at book entry
    intro c b
    cases h : boundaryState t s.time.gate p.2 with
    | none =>
      have same : c = l.filter fun p => (boundaryState t s.time.gate p.2).isSome :=
        List.filter_cons_of_neg (by simp [h])
      rw [boundaryEntry_of_none h] at book entry records
      rw [same]
      have fold : b = l.foldl (boundaryEntry t) s := by
        dsimp only [b]
        rw [List.foldl_cons, boundaryEntry_of_none h]
      rw [fold]
      exact ⟨book, entry, records⟩
    | some st =>
      have same : c = p :: l.filter fun p => (boundaryState t s.time.gate p.2).isSome :=
        List.filter_cons_of_pos (by simp [h])
      obtain ⟨firstBook, firstEntry, firstRecords⟩ := boundaryEntry_listed h
      rw [same]
      refine ⟨?_, ?_, records.trans firstRecords⟩
      · show _ = placed _ (placeMember p.1 true s.book)
        rw [← firstBook, placed_withEntries, ← book]
        rfl
      · simp only [ne_eq, List.cons_ne_nil, not_false_eq_true, true_or, iff_true]
        exact entry.2 (.inr firstEntry)

/-! ### The tables of a boundary, in whatever order they are written (log 6) -/

/-- The drain, with what was written before it and after it. -/
theorem boundaryTables_around (t : Nat) (s : State) :
    ∃ v ∈ [s, freeEnded t s, bookBoundary t s, freeEnded t (bookBoundary t s)],
      Tabled s v ∧ Tabled (drainQueue v) (boundaryTables t s) := by
  have freed (u : State) := tabled_freeEnded t u
  have booked (u : State) := tabled_bookBoundary t u
  unfold boundaryTables
  split_ifs with empty
  · refine ⟨s, by simp, .refl s, ?_⟩
    rw [drainQueue_of_empty empty]
    exact (booked s).trans (freed _)
  · rcases Config.drainOrder s.freeTick with ⟨_ | _, _ | _⟩
    · exact ⟨_, by simp, (booked s).trans (freed _), .refl _⟩
    · exact ⟨bookBoundary t s, by simp, booked s, freed _⟩
    · exact ⟨freeEnded t s, by simp, freed s, booked _⟩
    · exact ⟨s, by simp, .refl s, (booked _).trans (freed _)⟩

/-- The Book and the notices are those of the transitions alone. -/
theorem boundaryTables_transitions (t : Nat) (s : State) : ∃ u : State, u.book = s.book ∧ u.time = s.time ∧
    u.links = s.links ∧ (boundaryTables t s).book = (bookBoundary t u).book ∧
    (boundaryTables t s).links = (bookBoundary t u).links := by
  have drained (u : State) : (drainQueue u).book = u.book ∧ (drainQueue u).time = u.time ∧
      (drainQueue u).links = u.links := by
    obtain ⟨_, _, frame⟩ := drainQueue_frame u
    rw [frame]
    exact ⟨rfl, rfl, rfl⟩
  unfold boundaryTables
  split_ifs with empty
  · exact ⟨s, rfl, rfl, rfl, rfl, rfl⟩
  · rcases Config.drainOrder s.freeTick with ⟨_ | _, _ | _⟩
    · obtain ⟨book, -, links⟩ := drained (freeEnded t (bookBoundary t s))
      exact ⟨s, rfl, rfl, rfl, book, links⟩
    · obtain ⟨book, -, links⟩ := drained (bookBoundary t s)
      exact ⟨s, rfl, rfl, rfl, book, links⟩
    · obtain ⟨book, time, links⟩ := drained (freeEnded t s)
      exact ⟨_, book, time, links, rfl, rfl⟩
    · obtain ⟨book, time, links⟩ := drained s
      exact ⟨_, book, time, links, rfl, rfl⟩

theorem boundaryTables_listed (t : Nat) (s : State) :
    let c := s.book.entries.filter fun p => (boundaryState t s.time.gate p.2).isSome
    let b := boundaryTables t s
    { b.book with entries := s.book.entries } = placed c s.book ∧
    (b.links.tl.notices.entry = true ↔ c ≠ [] ∨ s.links.tl.notices.entry = true) ∧
    b.links.tl.notices.records = s.links.tl.notices.records := by
  obtain ⟨u, book, time, links, ofBook, ofLinks⟩ := boundaryTables_transitions t s
  have listed := foldl_boundaryEntry_listed t u.book.entries u
  dsimp only at listed ⊢
  rw [ofBook, ofLinks, ← book, ← time, ← links]
  exact listed

/-! ### Before the tables: the job learns, the accounts close (R88, R149) -/

theorem noticesOnly_queued (q : List DeliveryRecord) (s : State) : NoticesOnly s (queued q s) := by
  unfold queued
  split_ifs
  · exact noticesOnly_raiseOn .tl .records { s with track := { s.track with queue := q } }
  · exact NoticesOnly.refl s

theorem noticesOnly_boundaryClosed (s : State) : NoticesOnly s (boundaryClosed s) := by
  have noted : NoticesOnly s (noteBoundary s) := by
    rw [noteBoundary_eq]
    exact NoticesOnly.refl s
  by_cases waits : RoundOfEnded s.time.slot s
  · rw [boundaryClosed_held waits]
    exact noted
  · rw [boundaryClosed_emitted waits]
    exact NoticesOnly.trans (t := takenOut (closedAccounts s) (noteBoundary s)) noted (noticesOnly_queued ..)

theorem boundaryClosed_frame (s : State) : ∃ track links, boundaryClosed s = { s with
    eval := { s.eval with job := s.eval.job.map fun j => { j with boundaryTaken := true } }
    track := track
    links := links } := by
  by_cases waits : RoundOfEnded s.time.slot s
  · rw [boundaryClosed_held waits, noteBoundary_eq]
    exact ⟨_, _, rfl⟩
  · obtain ⟨_, frame⟩ := queued_frame (recordsEmitted s (closedAccounts s) s.track.queue)
      (takenOut (closedAccounts s) (noteBoundary s))
    rw [boundaryClosed_emitted waits, frame, noteBoundary_eq]
    exact ⟨_, _, rfl⟩

theorem queue_boundaryClosed (s : State) : (boundaryClosed s).track.queue =
    if RoundOfEnded s.time.slot s then s.track.queue else recordsEmitted s (closedAccounts s) s.track.queue := by
  split_ifs with waits
  · rw [boundaryClosed_held waits, noteBoundary_eq]
    rfl
  · rw [boundaryClosed_emitted waits, queued_track]

theorem records_boundaryClosed (s : State) : (boundaryClosed s).links.tl.notices.records = true ↔
    s.links.tl.notices.records = true ∨ (s.track.queue = [] ∧ (boundaryClosed s).track.queue ≠ []) := by
  by_cases waits : RoundOfEnded s.time.slot s
  · rw [queue_boundaryClosed, if_pos waits, boundaryClosed_held waits, noteBoundary_eq]
    exact ⟨.inl, fun h => h.resolve_right fun ⟨empty, listed⟩ => listed empty⟩
  · rw [queue_boundaryClosed, if_neg waits, boundaryClosed_emitted waits, records_queued, noteBoundary_eq]
    rfl

theorem entry_boundaryClosed (s : State) :
    (boundaryClosed s).links.tl.notices.entry = s.links.tl.notices.entry := by
  by_cases waits : RoundOfEnded s.time.slot s
  · rw [boundaryClosed_held waits, noteBoundary_eq]
    rfl
  · rw [boundaryClosed_emitted waits]
    refine (notices_queued (k := .entry) (by decide) _ _ .tl).trans ?_
    rw [noteBoundary_eq]
    rfl

/-- The boundary opens accounts and counts itself after its tables. -/
theorem slotBoundary_frame (s : State) : ∃ track tick,
    slotBoundary s = { boundaryTables s.time.slot (boundaryClosed s) with track := track, freeTick := tick } := by
  rw [slotBoundary_eq, openAccumulators_eq]
  exact ⟨_, _, rfl⟩

theorem inOriginMap_congr {s t : State} (a : t.links.mapA = s.links.mapA) (b : t.links.mapB = s.links.mapB) :
    inOriginMap t = inOriginMap s := by
  have maps : mapOf t = mapOf s := funext fun l => by
    cases l
    · rfl
    · rfl
    · exact congrArg some a
    · exact congrArg some b
  unfold inOriginMap
  rw [maps]

theorem placeMember_named {n : Nat} {cause : Bool} {b : Book} {before after : List ChangeMember} {m : ChangeMember}
    (listed : b.changes = before ++ m :: after) (own : m.entry = n) (apart : ∀ k ∈ before ++ after, k.entry ≠ n) :
    placeMember n cause b = { b with changes := before ++ { m with
      causeState := m.causeState || cause, causeCover := m.causeCover || !cause } :: after } := by
  have others (l : List ChangeMember) (h : ∀ k ∈ l, k.entry ≠ n) : l.map (fun m =>
      if m.entry = n then { m with causeState := m.causeState || cause, causeCover := m.causeCover || !cause }
      else m) = l := List.map_congr_left (fun k hk => if_neg (h k hk)) |>.trans (List.map_id l)
  have named : (b.changes.any fun m => m.entry == n) = true :=
    List.any_eq_true.2 ⟨m, by simp [listed], by simp [own]⟩
  rw [placeMember, if_pos named, listed, List.map_append, List.map_cons, if_pos own,
    others before fun k hk => apart k (List.mem_append_left _ hk),
    others after fun k hk => apart k (List.mem_append_right _ hk)]

theorem placeMember_unlisted {n : Nat} {cause : Bool} {b : Book} (apart : ∀ m ∈ b.changes, m.entry ≠ n) :
    placeMember n cause b = if b.changes.length < 64 then
      { b with changes := b.changes ++ [{ entry := n, causeState := cause, causeCover := !cause }] }
    else { b with more := true } :=
  if_neg (by simpa using apart)

/-- Settles O9: by what the boundary does before, in and after its tables, the drain anywhere among these; by one
drained setting; and by the three ways an entry is placed on the change list. -/
theorem boundaryDrainsTheQueue : Obligations.BoundaryDrainsTheQueue := by
  refine ⟨fun s tables => ?_, fun s q tables => ?_, fun n cause k => ⟨fun before m after listed own apart => ?_,
    fun apart room => ?_, fun apart full => ?_⟩⟩
  · intro t b closed waits changing
    have rising : Ascending s.fleet.units := tables.1.1
    obtain ⟨_, _, closedFrame⟩ := boundaryClosed_frame s
    obtain ⟨mapA, mapB, links⟩ := noticesOnly_boundaryClosed s
    obtain ⟨book, entry, records⟩ := boundaryTables_listed t (boundaryClosed s)
    obtain ⟨v, among, ⟨_, _, _, before, beforeA, beforeB⟩, ⟨_, _, _, after, -, -⟩⟩ :=
      boundaryTables_around t (boundaryClosed s)
    obtain ⟨_, _, frame⟩ := slotBoundary_frame s
    have maps : inOriginMap v = inOriginMap s :=
      inOriginMap_congr ((by rw [before]; exact beforeA : v.links.mapA = _).trans mapA)
        ((by rw [before]; exact beforeB : v.links.mapB = _).trans mapB)
    have queue : v.queue = s.queue := by rw [before, closedFrame]
    have fleet : v.fleet = s.fleet := by rw [before, closedFrame]
    have channels : onRunningChannel v = onRunningChannel s := by rw [before, closedFrame]; rfl
    have drained : b.fleet = (v.queue.foldl drainOne v).fleet ∧ b.eval = (v.queue.foldl drainOne v).eval ∧
        b.queue = [] := by
      dsimp only [b]
      rw [frame, after]
      exact ⟨rfl, rfl, rfl⟩
    have risingV : Ascending v.fleet.units := fleet ▸ rising
    have ofBook : (boundaryClosed s).book = s.book ∧ (boundaryClosed s).time = s.time := bookStill_boundaryClosed s
    have changed : ((boundaryClosed s).book.entries.filter fun p =>
        (boundaryState t (boundaryClosed s).time.gate p.2).isSome) = changing := by
      rw [ofBook.1, ofBook.2]
      exact List.filter_congr fun p _ => Bool.eq_iff_iff.2 ((boundaryState_isSome_iff ..).trans decide_eq_true_iff.symm)
    have bTrack : b.track.queue = (boundaryClosed s).track.queue := by
      dsimp only [b]
      rw [track_slotBoundary]
    obtain ⟨bBook, bLinks⟩ : b.book = (boundaryTables t (boundaryClosed s)).book ∧
        b.links = (boundaryTables t (boundaryClosed s)).links := by
      dsimp only [b]
      rw [frame]
      exact ⟨rfl, rfl⟩
    rw [changed] at book entry
    rw [ofBook.1] at book
    refine ⟨drained.2.2, fun i => ?_, ?_, ⟨boundaryClosed s, noticesOnly_boundaryClosed s, ?_, v, among, ?_⟩,
      ?_, ?_, ?_, ?_⟩
    · rw [unitOf_congr drained.1, unitOf_foldl_drainOne _ risingV, maps, channels, unitOf_congr fleet, queue]
    · have learnt := disturbs_foldl_drainOne v.queue risingV
      rw [maps, queue] at learnt
      unfold Disturbs at learnt ⊢
      rw [drained.2.1, queue, learnt, before, closedFrame]
    · rw [closedFrame]
    · rw [drained.2.1]
      rfl
    · rw [bBook]
      exact book
    · rw [bLinks, entry, entry_boundaryClosed]
    · exact bTrack.trans (queue_boundaryClosed s)
    · rw [bLinks, records, records_boundaryClosed, bTrack]
  · intro t u v
    refine ⟨rfl, drainOne_outside, fun inside => ?_⟩
    have rising : Ascending s.fleet.units := tables.1.1
    have marks := marked_drainOne rising inside
    obtain ⟨_, _, frame⟩ := drainOne_frame s q
    have units : { t.fleet with units := s.fleet.units } = s.fleet := by
      obtain ⟨_, applied⟩ := drainOne_frame_of_applySetting inside
      dsimp only [t]
      rw [applied, applySetting_fleet, withSetting, disturb_frame]
      rfl
    refine ⟨by dsimp only [t]; rw [frame], units, marks.only, marks.disturbs, unitOf_drainOne rising inside, ?_⟩
    exact (marks.congr (fun n e => by rw [limitsChanged_iff]) fun _ => rfl).marked
  · exact placeMember_named listed own apart
  · exact (placeMember_unlisted apart).trans (if_pos room)
  · exact (placeMember_unlisted apart).trans (if_neg (by omega))

end Sys2Proof.Machine

/-! PROOF. The end of a step: what the lines, the arbiter and the transmitters take (R32, R84, R85, R170). -/

namespace Sys2Proof.Machine

/-! ### The lines, one channel each (R32) -/

/-- A line's service reads its own channel's record, and nothing else of the channels. -/
theorem channelOf_kickLine_congr {s t : State} {cs : List (Nat × ChannelRec)} {k : Nat}
    (frame : t = { s with ctl := { s.ctl with channels := cs } }) (own : channelOf t k = channelOf s k) :
    channelOf (kickLine t k) k = channelOf (kickLine s k) k := by
  have wire (f : ChannelFrame) : channelFrameWire t k f = channelFrameWire s k f := by
    cases f with
    | exchange =>
      show channelWire 0x04#8 (exchangeContents t k) = channelWire 0x04#8 (exchangeContents s k)
      unfold exchangeContents
      rw [own, frame]
      rfl
    | arm => rw [frame]; rfl
    | _ => rfl
  unfold kickLine
  rw [own]
  by_cases free : (channelOf s k).line = .free
  · rw [if_pos free, if_pos free]
    cases nextFrame (channelOf s k) with
    | none => exact own
    | some p =>
      obtain ⟨f, owner, r⟩ := p
      simp only [wire]
      rw [channelOf_setChannel_listed (by simp [ChannelRec.reset]), channelOf_setChannel_listed (by simp [ChannelRec.reset])]
      simp only [if_true]
  · rw [if_neg free, if_neg free, own]

theorem channelOf_kickLine_ne {s : State} {c k : Nat} (h : k ≠ c) : channelOf (kickLine s c) k = channelOf s k := by
  rcases kickLine_cases s c with e | ⟨frame, owner, r, wire, -, -, e⟩
  · rw [e]
  · rw [e, channelOf_setChannel_listed (by simp [ChannelRec.reset]), if_neg h]

theorem channelOf_foldl_kickLine {cs : List Nat} (once : cs.Nodup) (s : State) (k : Nat) :
    channelOf (cs.foldl kickLine s) k = if k ∈ cs then channelOf (kickLine s k) k else channelOf s k := by
  induction cs generalizing s with
  | nil => simp
  | cons c cs ih =>
    obtain ⟨new, once⟩ := List.nodup_cons.1 once
    rw [List.foldl_cons, ih once]
    by_cases here : k = c
    · subst here
      rw [if_neg new, if_pos List.mem_cons_self]
    · simp only [List.mem_cons, here, false_or, channelOf_kickLine_ne here]
      split_ifs
      · exact channelOf_kickLine_congr (kickLine_frame s c) (channelOf_kickLine_ne here)
      · rfl

theorem channelOf_kickLines (s : State) (k : Nat) :
    channelOf (kickLines s) k = if k < 8 then channelOf (kickLine s k) k else channelOf s k := by
  rw [kickLines, channelOf_foldl_kickLine List.nodup_range]
  simp only [List.mem_range]

/-- What a served line leaves of its channel's record. -/
theorem channelOf_kickLine_frame (s : State) (k : Nat) : channelOf (kickLine s k) k = { channelOf s k with
    line := (channelOf (kickLine s k) k).line
    haltPending := (channelOf (kickLine s k) k).haltPending
    armPending := (channelOf (kickLine s k) k).armPending
    exchangePending := (channelOf (kickLine s k) k).exchangePending } := by
  rcases kickLine_cases s k with e | ⟨frame, owner, r, wire, -, next, e⟩
  · rw [e]
  · rw [e, channelOf_setChannel_listed (by simp [ChannelRec.reset]), if_pos rfl]
    unfold nextFrame at next
    split_ifs at next with halt arm exchange
    · cases next; rfl
    · cases next; rfl
    · cases next; rfl
    · split at next
      · cases next; rfl
      · cases next

/-- A line left free has nothing pending. -/
theorem pending_of_free {s : State} {k : Nat} (free : (channelOf (kickLine s k) k).line = .free) :
    (channelOf (kickLine s k) k).haltPending = false ∧ (channelOf (kickLine s k) k).armPending = false ∧
      (channelOf (kickLine s k) k).exchangePending = false := by
  cases next : nextFrame (channelOf s k) with
  | some p =>
    by_cases before : (channelOf s k).line = .free
    · rw [kickLine_of_next before next, channelOf_setChannel_listed (by simp [ChannelRec.reset]), if_pos rfl] at free
      cases free
    · rw [kickLine_of_busy before] at free
      exact absurd free before
  | none =>
    rw [kickLine_of_none next]
    unfold nextFrame at next
    split_ifs at next with halt arm exchange
    exact ⟨by simpa using halt, by simpa using arm, by simpa using exchange⟩

/-! ### The arbiter (R84, R85) -/

theorem arbitrate_of_job {s : State} (h : s.eval.job.isSome = true) : arbitrate s = s := by
  obtain ⟨j, hj⟩ := Option.isSome_iff_exists.1 h
  rw [arbitrate, hj]

theorem arbitrate_of_idle {s : State} (h : s.eval.job = none) : arbitrate s = arbiterLoop (s.eval.replans.length + 1) s := by
  rw [arbitrate, h]

theorem tlTurn_of_turn {s : State} {r : TlRequest} (waits : s.eval.slot = some r)
    (turn : s.eval.runCount = 4 ∨ s.eval.replans = []) : tlTurn s = some r := by
  rw [tlTurn, waits]
  exact if_pos turn

theorem tlTurn_of_flags {s : State} (h : s.eval.slot = none ∨ s.eval.runCount ≠ 4) (flags : s.eval.replans ≠ []) :
    tlTurn s = none := by
  unfold tlTurn
  cases waits : s.eval.slot with
  | none => rfl
  | some r => exact if_neg fun turn => turn.elim (h.resolve_left (by simp [waits])) flags

theorem tlTurn_of_nothing {s : State} (h : s.eval.slot = none) : tlTurn s = none := by
  rw [tlTurn, h]

/-- The arbiter's three decisions: the TL request, the first flagged entry to replan, or nothing. -/
theorem arbiterLoop_turn {s : State} {r : TlRequest} (turn : tlTurn s = some r) (fuel : Nat) :
    arbiterLoop (fuel + 1) s = grantTl r s := by
  rw [arbiterLoop, turn]

theorem arbiterLoop_flag {s : State} {n : Nat} {rest : List Nat} (turn : tlTurn s = none)
    (flags : s.eval.replans = n :: rest) (fuel : Nat) : arbiterLoop (fuel + 1) s =
      match replanEntry (takeFlag rest s) n with
      | some e => grant (.replan n e) (takeFlag rest s)
      | none => arbiterLoop fuel (takeFlag rest s) := by
  rw [arbiterLoop, turn]
  dsimp only
  rw [flags] <;> rfl

theorem arbiterLoop_nothing {s : State} (turn : tlTurn s = none) (flags : s.eval.replans = []) (fuel : Nat) :
    arbiterLoop (fuel + 1) s = s := by
  rw [arbiterLoop, turn]
  dsimp only
  rw [flags]

/-- A decision ends with a job, or with nothing that waits; and it flags no entry. -/
theorem arbiterLoop_served (fuel : Nat) {s : State} (enough : s.eval.replans.length < fuel) :
    ((arbiterLoop fuel s).eval.job = none → (arbiterLoop fuel s).eval.slot = none ∧
      (arbiterLoop fuel s).eval.replans = []) ∧
    ∀ n ∈ (arbiterLoop fuel s).eval.replans, n ∈ s.eval.replans := by
  induction fuel generalizing s with
  | zero => omega
  | succ fuel ih =>
    cases turn : tlTurn s with
    | some r =>
      rw [arbiterLoop_turn turn]
      cases r <;> exact ⟨fun h => (nomatch h), fun n h => h⟩
    | none =>
      cases flags : s.eval.replans with
      | nil =>
        rw [arbiterLoop_nothing turn flags]
        refine ⟨fun _ => ⟨?_, flags⟩, fun n h => flags ▸ h⟩
        cases waits : s.eval.slot with
        | none => rfl
        | some r => rw [tlTurn_of_turn waits (.inr flags)] at turn; cases turn
      | cons n rest =>
        rw [arbiterLoop_flag turn flags]
        rw [flags, List.length_cons] at enough
        cases replanEntry (takeFlag rest s) n with
        | some e => exact ⟨fun h => (nomatch h), fun k h => List.mem_cons_of_mem n h⟩
        | none =>
          obtain ⟨idle, kept⟩ := ih (s := takeFlag rest s) (Nat.lt_of_succ_lt_succ enough)
          exact ⟨idle, fun k h => List.mem_cons_of_mem n (kept k h)⟩

theorem arbitrate_served (s : State) : ((arbitrate s).eval.job = none → (arbitrate s).eval.slot = none ∧
      (arbitrate s).eval.replans = []) ∧ ∀ n ∈ (arbitrate s).eval.replans, n ∈ s.eval.replans := by
  cases job : s.eval.job with
  | some j =>
    rw [arbitrate_of_job (by rw [job]; rfl)]
    exact ⟨fun h => by simp [job] at h, fun n h => h⟩
  | none =>
    rw [arbitrate_of_idle job]
    exact arbiterLoop_served _ (Nat.lt_succ_self _)

/-- Of the channels a copy reads their states alone. -/
theorem freeze_congr {s : State} {cs : List (Nat × ChannelRec)}
    (states : ∀ c, (channelOf { s with ctl := { s.ctl with channels := cs } } c).state = (channelOf s c).state) :
    freeze { s with ctl := { s.ctl with channels := cs } } = freeze s := by
  have unit (i : Nat) : freezeUnit { s with ctl := { s.ctl with channels := cs } } i = freezeUnit s i := by
    unfold freezeUnit
    rw [contributing_congr (s := s) (t := { s with ctl := { s.ctl with channels := cs } }) rfl states]
    rfl
  unfold freeze
  simp only [unit]

theorem arbiterLoop_congr (fuel : Nat) {s : State} {cs : List (Nat × ChannelRec)}
    (states : ∀ c, (channelOf { s with ctl := { s.ctl with channels := cs } } c).state = (channelOf s c).state) :
    (arbiterLoop fuel { s with ctl := { s.ctl with channels := cs } }).eval = (arbiterLoop fuel s).eval := by
  have granted (kind : JobKind) (u : State)
      (h : ∀ c, (channelOf { u with ctl := { u.ctl with channels := cs } } c).state = (channelOf u c).state) :
      (grant kind { u with ctl := { u.ctl with channels := cs } }).eval = (grant kind u).eval := by
    unfold grant
    rw [freeze_congr h]
  induction fuel generalizing s with
  | zero => rfl
  | succ fuel ih =>
    have same : tlTurn { s with ctl := { s.ctl with channels := cs } } = tlTurn s := rfl
    cases turn : tlTurn s with
    | some r =>
      rw [arbiterLoop_turn (same.trans turn), arbiterLoop_turn turn]
      cases r with
      | quote q => exact granted (.quote q) { s with eval := { s.eval with slot := none, runCount := 0 } } states
      | offer o => exact granted (.offer o) { s with eval := { s.eval with slot := none, runCount := 0 } } states
    | none =>
      cases flags : s.eval.replans with
      | nil => rw [arbiterLoop_nothing (same.trans turn) flags, arbiterLoop_nothing turn flags]
      | cons n rest =>
        rw [arbiterLoop_flag (same.trans turn) (n := n) (rest := rest) flags, arbiterLoop_flag turn flags]
        have entry : replanEntry (takeFlag rest { s with ctl := { s.ctl with channels := cs } }) n =
            replanEntry (takeFlag rest s) n := rfl
        rw [entry]
        cases replanEntry (takeFlag rest s) n with
        | some e => exact granted (.replan n e) (takeFlag rest s) states
        | none => exact ih (s := takeFlag rest s) states

theorem arbitrate_kickLines_eval (s : State) : (arbitrate (kickLines s)).eval = (arbitrate s).eval := by
  have states (c : Nat) : (channelOf (kickLines s) c).state = (channelOf s c).state := by
    rw [channelOf_kickLines]
    split_ifs
    · rw [channelOf_kickLine_frame]
    · rfl
  rw [kickLines_frame] at states ⊢
  cases job : s.eval.job with
  | some j =>
    rw [arbitrate_of_job (s := s) (by rw [job]; rfl), arbitrate_of_job (by simp [job])]
  | none =>
    rw [arbitrate_of_idle (s := s) job, arbitrate_of_idle (by exact job)]
    exact arbiterLoop_congr _ states

/-! ### The transmitters (R170) -/

/-- What the service of link `l`'s transmitter leaves. -/
structure Served (l : Link) (s t : State) : Prop where
  others : ∀ j, j ≠ l → linkOf t j = linkOf s j
  frame : linkOf t l = { linkOf s l with
    answers := (linkOf t l).answers
    busy := (linkOf t l).busy
    telegram := (linkOf t l).telegram
    tx := (linkOf t l).tx
    notices := (linkOf t l).notices }
  sending : (linkOf s l).tx ≠ .free → linkOf t l = linkOf s l
  book : (linkOf s l).notices.entry = false → t.book = s.book

theorem served_refl (l : Link) (s : State) : Served l s s where
  others := fun _ _ => rfl
  frame := rfl
  sending := fun _ => rfl
  book := fun _ => rfl

/-- A frame's beginning is written to its own link. -/
theorem served_setLink {l : Link} {s : State} {r : LinkRec} (free : (linkOf s l).tx = .free)
    (frame : r = { linkOf s l with
      answers := r.answers, busy := r.busy, telegram := r.telegram, tx := r.tx, notices := r.notices }) :
    Served l s (setLink l r s) where
  others := fun j other => linkOf_setLink_ne other ..
  frame := by rw [linkOf_setLink_self]; exact frame
  sending := fun busy => absurd free busy
  book := fun _ => setLink_book ..

theorem served_kickTx (l : Link) (s : State) : Served l s (kickTx l s) := by
  by_cases free : (linkOf s l).tx = .free
  · cases telegram : (linkOf s l).telegram with
    | some a => rw [kickTx_of_telegram free telegram]; exact served_setLink free rfl
    | none =>
      cases answers : (linkOf s l).answers with
      | cons o rest => rw [kickTx_of_answer free telegram answers]; exact served_setLink free rfl
      | nil =>
        cases busy : (linkOf s l).busy with
        | some a => rw [kickTx_of_busyAnswer free telegram answers busy]; exact served_setLink free rfl
        | none =>
          cases first : firstNotice (linkOf s l).notices with
          | none => rw [kickTx_of_nothing free telegram answers busy first]; exact served_refl l s
          | some k =>
            rw [kickTx_of_notice free telegram answers busy first]
            have sent : Served l s (setLink l { linkOf s l with
              notices := noticeSet (linkOf s l).notices k false
              tx := .sending (.notice k) (noticeWire k (timeStatus s) (noticeContents s k)) } s) :=
              served_setLink free rfl
            dsimp only [sendNotice]
            split_ifs with entry
            · have links (u : State) (j : Link) : linkOf (emptyChanges u) j = linkOf u j := by cases j <;> rfl
              refine ⟨fun j other => (links _ j).trans (sent.others j other), ?_, fun busy => absurd free busy,
                fun clear => ?_⟩
              · rw [links]
                exact sent.frame
              · have raised := List.find?_some first
                rw [entry] at raised
                exact absurd (clear.symm.trans raised) (by simp)
            · exact sent
  · rw [kickTx_of_busy free]
    exact served_refl l s

/-- A transmitter left free by its service has nothing that waits. -/
theorem nothing_of_free {l : Link} {s : State} (after : (linkOf (kickTx l s) l).tx = .free) :
    (linkOf (kickTx l s) l).telegram = none ∧ (linkOf (kickTx l s) l).answers = [] ∧
      (linkOf (kickTx l s) l).busy = none ∧ ∀ k, noticeGet (linkOf (kickTx l s) l).notices k = false := by
  by_cases free : (linkOf s l).tx = .free
  · have sends {r : LinkRec} (busy : r.tx ≠ .free) (h : (linkOf (setLink l r s) l).tx = .free) : False := by
      rw [linkOf_setLink_self] at h
      exact busy h
    cases telegram : (linkOf s l).telegram with
    | some a => rw [kickTx_of_telegram free telegram] at after; exact (sends (by simp) after).elim
    | none =>
      cases answers : (linkOf s l).answers with
      | cons o rest => rw [kickTx_of_answer free telegram answers] at after; exact (sends (by simp) after).elim
      | nil =>
        cases busy : (linkOf s l).busy with
        | some a => rw [kickTx_of_busyAnswer free telegram answers busy] at after; exact (sends (by simp) after).elim
        | none =>
          cases first : firstNotice (linkOf s l).notices with
          | none =>
            rw [kickTx_of_nothing free telegram answers busy first]
            refine ⟨telegram, answers, busy, fun k => ?_⟩
            simpa using List.find?_eq_none.1 first k (noticeGet_mem_kindOrder k)
          | some k =>
            rw [kickTx_of_notice free telegram answers busy first] at after
            have links (u : State) : linkOf (emptyChanges u) l = linkOf u l := by cases l <;> rfl
            dsimp only [sendNotice] at after
            split_ifs at after
            · rw [links] at after
              exact (sends (by simp) after).elim
            · exact (sends (by simp) after).elim
  · rw [kickTx_of_busy free] at after
    exact absurd after free

/-- A notice that waits for its mark is the first frame of a free transmitter (log 30). -/
theorem noticeWaits_iff (l : Link) (s : State) : noticeWaits l s = true ↔ AwaitsItsMark l s := by
  have first (f : NoticeFlags) : firstNotice f = some .timeMark ↔ noticeGet f .timeMark = true ∧
      ∀ k ∈ [NoticeKind.entry, .margin, .channel, .freqLost, .operatorSilent], noticeGet f k = false := by
    constructor
    · intro h
      obtain ⟨raised, before, after, order, clear⟩ := List.find?_eq_some_iff_append.1 h
      have place : before = [NoticeKind.entry, .margin, .channel, .freqLost, .operatorSilent] := by
        have codes := noticeCode_of_split order
        have length : before.length = 5 := by simpa [noticeCode] using codes.symm
        have taken : kindOrder.take 5 = before := by rw [order, List.take_left' length]
        exact taken.symm
      exact ⟨raised, fun k hk => by simpa using clear k (place ▸ hk)⟩
    · rintro ⟨raised, clear⟩
      exact firstNotice_of_split (after := [.records, .override]) rfl clear raised
  unfold noticeWaits timeMarkNext AwaitsItsMark
  simp only [Bool.and_eq_true, decide_eq_true_eq, first, Option.isNone_iff_eq_none, List.isEmpty_iff, and_assoc]
  rfl

theorem serveLink_of_waits {l : Link} {s : State} (h : AwaitsItsMark l s) : serveLink true l s = s :=
  if_pos (by simp [noticeWaits_iff, h])

theorem serveLink_of_served {expiry : Bool} {l : Link} {s : State} (h : ¬(expiry = true ∧ AwaitsItsMark l s)) :
    serveLink expiry l s = kickTx l s :=
  if_neg (by simpa [noticeWaits_iff] using h)

/-! ### The end of a step -/

theorem served_serveLink (expiry : Bool) (l : Link) (s : State) : Served l s (serveLink expiry l s) := by
  rcases serveLink_cases expiry l s with ⟨-, -, e⟩ | ⟨-, e⟩
  · rw [e]
    exact served_refl l s
  · rw [e]
    exact served_kickTx l s

theorem awaitsItsMark_congr {l : Link} {s t : State} (pending : t.pending = s.pending) (link : linkOf t l = linkOf s l) :
    AwaitsItsMark l t ↔ AwaitsItsMark l s := by
  unfold AwaitsItsMark
  rw [pending, link]

/-- Each transmitter in its place: what it was given, and what it made of it. -/
theorem settleWith_served (expiry : Bool) (s : State) (l : Link) : ∃ u v : State,
    linkOf u l = linkOf s l ∧ linkOf (settleWith expiry s) l = linkOf v l ∧ u.pending = s.pending ∧
    v = serveLink (expiry && (l == .tl || l == .gl)) l u := by
  have base (j : Link) : linkOf (arbitrate (kickLines s)) j = linkOf s j := by
    have links : (arbitrate (kickLines s)).links = s.links := by rw [arbitrate_links, kickLines_links]
    unfold linkOf
    rw [links]
  set a := arbitrate (kickLines s) with ha
  have pending : a.pending = s.pending := by simp [ha]
  have tl := served_serveLink expiry .tl a
  set b := serveLink expiry .tl a with hb
  have gl := served_serveLink expiry .gl b
  set c := serveLink expiry .gl b with hc
  have fa := served_kickTx .fa c
  set d := kickTx .fa c with hd
  have fb := served_kickTx .fb d
  have whole : settleWith expiry s = kickTx .fb d := rfl
  cases l with
  | tl =>
    refine ⟨a, b, base .tl, ?_, pending, by rw [hb]; cases expiry <;> rfl⟩
    rw [whole, fb.others _ (by decide), fa.others _ (by decide), gl.others _ (by decide)]
  | gl =>
    refine ⟨b, c, (tl.others _ (by decide)).trans (base .gl), ?_, by simp [hb, pending], by rw [hc]; cases expiry <;> rfl⟩
    rw [whole, fb.others _ (by decide), fa.others _ (by decide)]
  | fa =>
    refine ⟨c, d, ?_, ?_, by simp [hc, hb, pending], by rw [hd, ← serveLink_false]; cases expiry <;> rfl⟩
    · rw [gl.others _ (by decide), tl.others _ (by decide), base]
    · rw [whole, fb.others _ (by decide)]
  | fb =>
    refine ⟨d, kickTx .fb d, ?_, by rw [whole], by simp [hd, hc, hb, pending], by rw [← serveLink_false]; cases expiry <;> rfl⟩
    rw [fa.others _ (by decide), gl.others _ (by decide), tl.others _ (by decide), base]

theorem book_settleWith {s : State} (expiry : Bool) (clear : ∀ l, (linkOf s l).notices.entry = false) :
    (settleWith expiry s).book = s.book := by
  have links : (arbitrate (kickLines s)).links = s.links := by rw [arbitrate_links, kickLines_links]
  have base (j : Link) : linkOf (arbitrate (kickLines s)) j = linkOf s j := by
    unfold linkOf
    rw [links]
  set a := arbitrate (kickLines s) with ha
  have tl := served_serveLink expiry .tl a
  have gl := served_serveLink expiry .gl (serveLink expiry .tl a)
  have fa := served_kickTx .fa (serveLink expiry .gl (serveLink expiry .tl a))
  have fb := served_kickTx .fb (kickTx .fa (serveLink expiry .gl (serveLink expiry .tl a)))
  have whole : settleWith expiry s = kickTx .fb (kickTx .fa (serveLink expiry .gl (serveLink expiry .tl a))) := rfl
  rw [whole, fb.book, fa.book, gl.book, tl.book]
  · simp [ha]
  · rw [base]; exact clear _
  · rw [tl.others _ (by decide), base]; exact clear _
  · rw [gl.others _ (by decide), tl.others _ (by decide), base]; exact clear _
  · rw [fa.others _ (by decide), gl.others _ (by decide), tl.others _ (by decide), base]; exact clear _

theorem setLink_frame (l : Link) (r : LinkRec) (s : State) : setLink l r s = { s with links := (setLink l r s).links } := by
  cases l <;> rfl

/-- The end of a step changes the lines, the Evaluator, the links and the change list alone. -/
theorem settleWith_frame (expiry : Bool) (s : State) : ∃ ctl eval links book,
    settleWith expiry s = { s with ctl := ctl, eval := eval, links := links, book := book } := by
  have sent (l : Link) (u : State) : ∃ links book, kickTx l u = { u with links := links, book := book } := by
    rcases kickTx_cases l u with e | ⟨r, e | e⟩ <;> rw [e]
    · exact ⟨_, _, rfl⟩
    · exact ⟨_, _, setLink_frame l r u⟩
    · rw [setLink_frame]
      exact ⟨_, _, rfl⟩
  have served (l : Link) (u : State) : ∃ links book, serveLink expiry l u = { u with links := links, book := book } := by
    rcases serveLink_cases expiry l u with ⟨-, -, e⟩ | ⟨-, e⟩
    · exact ⟨_, _, e⟩
    · rw [e]
      exact sent l u
  unfold settleWith
  obtain ⟨_, _, tl⟩ := served .tl (arbitrate (kickLines s))
  obtain ⟨_, _, gl⟩ := served .gl (serveLink expiry .tl (arbitrate (kickLines s)))
  obtain ⟨_, _, fa⟩ := sent .fa (serveLink expiry .gl (serveLink expiry .tl (arbitrate (kickLines s))))
  obtain ⟨_, _, fb⟩ := sent .fb (kickTx .fa (serveLink expiry .gl (serveLink expiry .tl (arbitrate (kickLines s)))))
  rw [fb, fa, gl, tl, arbitrate_frame, kickLines_frame]
  exact ⟨_, _, _, _, rfl⟩

/-- An EXCHANGE field by its unit's SETPOINT record (R29, R45). -/
theorem setpointField_eq (u : UnitRec) (setpoint : Int) : setpointField u setpoint =
    match u.catalogue.find? fun d => d.kind == .setpoint with
    | none => putU 1 0
    | some d => putU 1 d.width ++ leBytes ((d.width + 7) / 8)
        ((max (-(2 ^ (d.width - 1) - 1)) (min (2 ^ (d.width - 1) - 1) (Int.tdiv (setpoint * (2 ^ (d.width - 1) - 1)) d.max)) %
          2 ^ (8 * ((d.width + 7) / 8)) : Int)).toNat := by
  unfold setpointField recordOf
  cases u.catalogue.find? fun d => d.kind == .setpoint with
  | none => rfl
  | some d => rfl

/-- Settles O53: by the lines, the arbiter and the transmitters in their order, each with what it leaves. -/
theorem settleServesWhatWaits : Obligations.SettleServesWhatWaits := by
  refine ⟨fun s => rfl, fun s expiry tables => ?_, fun s k => ?_⟩
  · intro t awaits
    have ctl : t.ctl = (kickLines s).ctl := by simp [t, settleWith]
    have channel (k : Nat) : channelOf t k = channelOf (kickLines s) k := channelOf_congr (congrArg Controller.channels ctl) k
    have eval : t.eval = (arbitrate s).eval := by
      have same : t.eval = (arbitrate (kickLines s)).eval := by simp [t, settleWith]
      rw [same, arbitrate_kickLines_eval]
    obtain ⟨idle, kept⟩ := arbitrate_served s
    rw [← eval] at idle kept
    refine ⟨?_, ?_, fun k hk => ?_, fun k hk => ?_, eval, ?_, fun k => ?_, fun k busy => ?_, fun k hk free => ?_,
      ?_, fun job => ?_, idle, kept, ?_, book_settleWith expiry, by simp [t], by simp [t], fun l => ?_,
      fun l busy => ?_, fun l free => ?_⟩
    · obtain ⟨_, _, _, _, frame⟩ := settleWith_frame expiry s
      dsimp only [t]
      rw [frame]
    · rw [ctl, kickLines_frame]
    · rw [channel, channelOf_kickLines, if_pos hk]
    · rw [channel, channelOf_kickLines, if_neg (by omega)]
    · intro served
      have free {l : Link} (h : l = .fa ∨ l = .fb) (u : State) : served l u (kickTx l u) :=
        ⟨fun awaited => by rcases h with rfl | rfl <;> simp [awaits] at awaited, fun _ => rfl⟩
      have service {l : Link} (h : l = .tl ∨ l = .gl) (u : State) : served l u (serveLink expiry l u) := by
        refine ⟨fun awaited => ?_, fun passes => serveLink_of_served fun both => passes ⟨both.1, h, both.2⟩⟩
        rw [show expiry = true from awaited.1]
        exact serveLink_of_waits awaited.2.2
      exact ⟨_, _, _, service (.inl rfl) _, service (.inr rfl) _, free (.inl rfl) _, free (.inr rfl) _⟩
    · rw [channel, channelOf_kickLines]
      split_ifs
      · exact channelOf_kickLine_frame s k
      · rfl
    · rw [channel, channelOf_kickLines, kickLine_of_busy busy, ite_self]
    · rw [channel, channelOf_kickLines, if_pos hk] at free ⊢
      exact pending_of_free free
    · rw [eval, arbitrate_frame]
    · rw [eval, arbitrate_of_job job]
    · show Book.mk t.book.entries s.book.changes s.book.more t.book.endurance = s.book
      rw [settleWith_book_entries, settleWith_book_endurance]
    · obtain ⟨u, v, before, after, -, e⟩ := settleWith_served expiry s l
      have frame := (served_serveLink (expiry && (l == .tl || l == .gl)) l u).frame
      rw [← e, before, ← after] at frame
      exact frame
    · obtain ⟨u, v, before, after, -, e⟩ := settleWith_served expiry s l
      have kept := (served_serveLink (expiry && (l == .tl || l == .gl)) l u).sending (by rw [before]; exact busy)
      rw [← e, before, ← after] at kept
      exact kept
    · obtain ⟨u, v, before, after, pending, e⟩ := settleWith_served expiry s l
      rw [after] at free ⊢
      by_cases waits : (expiry && (l == .tl || l == .gl)) = true ∧ AwaitsItsMark l u
      · rw [waits.1, serveLink_of_waits waits.2] at e
        obtain ⟨-, -, -, telegram, answers, busy, -, -⟩ := waits.2
        have side : expiry = true ∧ (l = .tl ∨ l = .gl) := by simpa using waits.1
        have awaited : AwaitsItsMark l t :=
          (awaitsItsMark_congr (s := u) (by rw [settleWith_pending, pending]) (by rw [after, e])).2 waits.2
        rw [e]
        exact ⟨telegram, answers, busy, .inl ⟨side.1, side.2, awaited⟩⟩
      · rw [serveLink_of_served waits] at e
        rw [e] at free ⊢
        obtain ⟨telegram, answers, busy, notices⟩ := nothing_of_free free
        exact ⟨telegram, answers, busy, .inr notices⟩
  · rw [exchangeContents]
    simp only [setpointField_eq, setpointOf, unitIndex_eq] <;> rfl

end Sys2Proof.Machine

/-! PROOF. The arbiter's order, the copy a job plans on, and what disturbs a job (R84 to R87, R91 to R96). -/

namespace Sys2Proof.Machine

/-! ### The arbiter's decisions (R84, R85) -/

theorem arbitrate_tl {s : State} {r : TlRequest} (idle : s.eval.job = none) (waits : s.eval.slot = some r)
    (turn : s.eval.runCount = 4 ∨ s.eval.replans = []) : arbitrate s = grantTl r s := by
  rw [arbitrate_of_idle idle, arbiterLoop_turn (tlTurn_of_turn waits turn)]

/-- The lowest flagged entry of a rising set stands first. -/
theorem replans_lowest {l : List Nat} (rising : l.Pairwise (· < ·)) {n : Nat} (flagged : n ∈ l) (least : ∀ k ∈ l, n ≤ k) :
    l = n :: l.filter fun k => k ≠ n := by
  cases l with
  | nil => exact absurd flagged List.not_mem_nil
  | cons m rest =>
    obtain ⟨above, -⟩ := List.pairwise_cons.1 rising
    obtain rfl : m = n := by
      rcases List.mem_cons.1 flagged with e | later
      · exact e.symm
      · have := above n later
        have := least m List.mem_cons_self
        omega
    have apart : rest.filter (fun k => k ≠ m) = rest :=
      List.filter_eq_self.2 fun k hk => by simpa using (above k hk).ne'
    rw [List.filter_cons_of_neg (by simp), apart]

section

variable {s : State} {n : Nat} (idle : s.eval.job = none) (turn : s.eval.slot = none ∨ s.eval.runCount ≠ 4)
  (flags : s.eval.replans = n :: s.eval.replans.filter fun k => k ≠ n)
include idle turn flags

theorem arbitrate_flag : arbitrate s =
    match replanEntry (takeFlag (s.eval.replans.filter fun k => k ≠ n) s) n with
    | some e => grant (.replan n e) (takeFlag (s.eval.replans.filter fun k => k ≠ n) s)
    | none => arbitrate (takeFlag (s.eval.replans.filter fun k => k ≠ n) s) := by
  have flagged : s.eval.replans ≠ [] := by
    rw [flags]
    exact List.cons_ne_nil _ _
  have length : s.eval.replans.length = (s.eval.replans.filter fun k => k ≠ n).length + 1 := by
    rw [← List.length_cons (a := n), ← flags]
  rw [arbitrate_of_idle idle, arbiterLoop_flag (tlTurn_of_flags turn flagged) flags, length,
    arbitrate_of_idle (s := takeFlag (s.eval.replans.filter fun k => k ≠ n) s) idle]
  rfl

theorem arbitrate_replan {e : Entry} (found : entryOf s n = some e) (live : nonTerminal e.state = true) :
    arbitrate s = grant (.replan n e) (takeFlag (s.eval.replans.filter fun k => k ≠ n) s) := by
  have entry : replanEntry (takeFlag (s.eval.replans.filter fun k => k ≠ n) s) n = some e := by
    unfold replanEntry
    rw [show entryOf (takeFlag (s.eval.replans.filter fun k => k ≠ n) s) n = some e from found]
    exact if_pos live
  rw [arbitrate_flag idle turn flags, entry]

theorem arbitrate_dropped (gone : ∀ e, entryOf s n = some e → nonTerminal e.state = false) :
    arbitrate s = arbitrate (takeFlag (s.eval.replans.filter fun k => k ≠ n) s) := by
  have entry : replanEntry (takeFlag (s.eval.replans.filter fun k => k ≠ n) s) n = none := by
    have same : entryOf (takeFlag (s.eval.replans.filter fun k => k ≠ n) s) n = entryOf s n := rfl
    unfold replanEntry
    rw [same]
    cases found : entryOf s n with
    | none => rfl
    | some e => exact if_neg (by simp [gone e found])
  rw [arbitrate_flag idle turn flags, entry]

end

/-! ### The frozen copy (R86) -/

theorem frozenUnit_freeze (s : State) (i : Nat) : frozenUnit (freeze s) i = freezeUnit s i := by
  have copied : tableFind (freeze s).units i = (tableFind s.fleet.units i).map fun _ => freezeUnit s i :=
    tableFind_map (fun i _ => freezeUnit s i) s.fleet.units i
  cases found : tableFind s.fleet.units i with
  | some u => rw [frozenUnit, tableGet, copied, found, Option.map_some, Option.getD_some]
  | none =>
    have empty : unitOf s i = UnitRec.reset := by rw [unitOf, tableGet, found]; rfl
    have idle : contributing s i = false := by simp [contributing, empty, UnitRec.reset]
    rw [frozenUnit, tableGet, copied, found, freezeUnit, idle, empty]
    rfl

theorem confidence_eq (u : UnitRec) :
    confidence u = if u.state = .lost then 0 else if 2 < u.miss then 500 else 1000 := by
  unfold confidence
  split_ifs <;> omega

/-! ### What a unit offers and a group has room for (R91 to R96) -/

/-- The least over a range of the lesser of two figures. -/
theorem leastOver_min (first : Nat) {count : Nat} (h : 1 ≤ count) (a b : Nat → Nat) :
    (∀ t, first ≤ t → t < first + count → min (leastOver first count a) (leastOver first count b) ≤ min (a t) (b t)) ∧
    ∃ t, first ≤ t ∧ t < first + count ∧
      min (leastOver first count a) (leastOver first count b) = min (a t) (b t) := by
  obtain ⟨boundA, t, fromA, toA, atA⟩ := leastOver_spec first count a h
  obtain ⟨boundB, u, fromB, toB, atB⟩ := leastOver_spec first count b h
  refine ⟨fun t lo hi => min_le_min (boundA t lo hi) (boundB t lo hi), ?_⟩
  rcases le_total (leastOver first count a) (leastOver first count b) with le | le
  · exact ⟨t, fromA, toA, by have := boundB t fromA toA; omega⟩
  · exact ⟨u, fromB, toB, by have := boundA u fromB toB; omega⟩

theorem groupRoom_eq (f : Frozen) (shares : List ShareRec) (counts : DirClass → Bool) (limit g t : Nat) :
    groupRoom f shares counts limit g t = limit * 1000 - powerSum ((shares.filter fun r =>
      counts r.cls && (decide (r.first ≤ t) && decide (t ≤ r.last))).filter fun r => (frozenUnit f r.unit).feeder == g) := by
  rw [List.filter_filter]
  simp only [groupRoom, covers, Bool.and_comm (x := (frozenUnit f _).feeder == g)]

/-! ### What disturbs a job (R87) -/

theorem disturbs_stopChannel {s : State} {k : Nat} (runs : (channelOf s k).state ≠ .stopped) :
    Disturbs s (stopChannel s k) (fun u => channelOfUnit u == k) := by
  rw [stopChannel_running runs]
  have marks := ((marked_setChannel k _ s).trans (roundSide_leaveRound k (abandoned k s)).marked).trans
    (emptyChannel_marked k _)
  exact (marks.congr (fun n e => .rfl) fun i => by simp).disturbs

/-- Settles O31: by the arbiter's equations, the copy's figures, the least over a range, and the marks of each event. -/
theorem arbiterDecidesInOrder : Obligations.ArbiterDecidesInOrder := by
  refine ⟨fun s tables => ⟨arbitrate_of_job, fun idle free clear => ?_, fun r idle waits turn => ?_,
    fun n idle turn flagged least => ?_, ?_⟩, fun f shares p first count slots => ?_, fun s k i g x limits => ?_⟩
  · rw [arbitrate_of_idle idle, arbiterLoop_nothing (tlTurn_of_nothing free) clear]
  · rw [arbitrate_tl idle waits turn]
    cases r with
    | quote q => exact ⟨_, rfl, fun _ e => by cases e; exact ⟨rfl, rfl⟩, fun _ e => (nomatch e), rfl, rfl, rfl, rfl⟩
    | offer o => exact ⟨_, rfl, fun _ e => (nomatch e), fun _ e => by cases e; exact ⟨rfl, rfl⟩, rfl, rfl, rfl, rfl⟩
  · have flags := replans_lowest tables.2.2.2.2.2.2 flagged least
    exact ⟨fun e found live => ⟨_, arbitrate_replan idle turn flags found live, rfl, rfl, rfl, rfl, rfl, rfl⟩,
      arbitrate_dropped idle turn flags⟩
  · refine ⟨fun i => ?_, rfl, rfl, rfl, rfl, rfl, rfl, rfl, rfl⟩
    rw [frozenUnit_freeze, freezeUnit, confidence_eq]
  · intro held within
    refine ⟨?_, ?_, rfl⟩
    · intro i u mine power up down raw offered range
      have same (t : Nat) : offered t = offerable f p (frozenUnit f i) mine t := by
        cases p <;> rfl
      obtain ⟨bound, t, lo, hi, at_⟩ := leastOver_spec first count (offerable f p (frozenUnit f i) mine) slots
      exact ⟨fun t ht => (bound t ht.1 ht.2).trans_eq (same t).symm, t, ⟨lo, hi⟩, at_.trans (same t).symm⟩
    · intro g limits left raw room
      have reach {a : Nat → Nat} (same : ∀ t, raw t = a t) (h : (∀ t, first ≤ t → t < first + count → room ≤ a t) ∧
          ∃ t, first ≤ t ∧ t < first + count ∧ room = a t) :
          (∀ t, within t → room ≤ raw t) ∧ ∃ t, within t ∧ room = raw t := by
        obtain ⟨bound, t, lo, hi, at_⟩ := h
        exact ⟨fun t ht => (bound t ht.1 ht.2).trans_eq (same t).symm, t, ⟨lo, hi⟩, at_.trans (same t).symm⟩
      cases p with
      | rsu => exact reach (fun t => (groupRoom_eq ..).symm) (leastOver_spec first count _ slots)
      | rsd => exact reach (fun t => (groupRoom_eq ..).symm) (leastOver_spec first count _ slots)
      | fsr =>
        exact reach (fun t => congrArg₂ min (groupRoom_eq ..).symm (groupRoom_eq ..).symm)
          (leastOver_min first slots _ _)
  · intro span
    refine ⟨disturbs_stopChannel, (marked_disengageChannel s k).disturbs, (marked_faultChannel k s).disturbs,
      (marked_contributionLost i s).disturbs, (marked_applySetting i x s).disturbs, ?_⟩
    exact ((marked_writeFeeder g limits s).congr (fun n e => .rfl) fun u => by
      rw [Bool.and_comm, Bool.decide_or]).disturbs

end Sys2Proof.Machine

/-! PROOF. The completions of the Evaluator's jobs, and the records they write (R62, R87 to R89, R96, R99 to R104, R108,
R115, R116). -/

namespace Sys2Proof.Machine

/-! ### Free numbers (R104) -/

theorem lowestFree_eq_take (used : List Nat) (fuel n k : Nat) : lowestFree used fuel n k =
    ((List.range' n fuel).filter fun m => !used.contains m).take k := by
  induction fuel generalizing n k with
  | zero => simp [lowestFree]
  | succ fuel ih =>
    cases k with
    | zero => rfl
    | succ k =>
      rw [List.range'_succ, lowestFree]
      by_cases held : used.contains n = true
      · rw [if_pos held, ih, List.filter_cons_of_neg (by simpa using held)]
      · rw [if_neg held, ih, List.filter_cons_of_pos (by simpa using held), List.take_succ_cons]

theorem freeNumbers_eq_take (rs : List ShareRec) (k : Nat) : freeNumbers rs k =
    ((List.range' 0 32768).filter fun m => !(rs.map ShareRec.num).contains m).take k := lowestFree_eq_take ..

/-- At least as many numbers of a range are free as it has more of than are in use. -/
theorem length_filter_unused (used : List Nat) (fuel : Nat) :
    fuel ≤ ((List.range' 0 fuel).filter fun m => !used.contains m).length + used.length := by
  have halves := List.length_eq_length_filter_add (l := List.range' 0 fuel) fun m => used.contains m
  have held : ((List.range' 0 fuel).filter fun m => used.contains m).length ≤ used.length :=
    (List.subperm_of_subset ((List.nodup_range' (step := 1)).filter _) fun m hm => by
      simpa using (List.mem_filter.1 hm).2).length_le
  rw [List.length_range'] at halves
  omega

/-! ### Records written (R104, R108, R116) -/

theorem joinAfter_absent {n : Nat} {r : ShareRec} {rs : List ShareRec} (h : ∀ y ∈ rs, ¬(y.num = n ∧ y.entry = r.entry)) :
    joinAfter n r rs = rs := by
  induction rs with
  | nil => rfl
  | cons y rs ih =>
    rw [joinAfter, if_neg (h y List.mem_cons_self), ih fun z hz => h z (List.mem_cons_of_mem _ hz)]

theorem joinAfter_found {n : Nat} {r x : ShareRec} {before : List ShareRec} (after : List ShareRec)
    (h : ∀ y ∈ before, ¬(y.num = n ∧ y.entry = r.entry)) (num : x.num = n) (entry : x.entry = r.entry) :
    joinAfter n r (before ++ x :: after) = before ++ x :: r :: after := by
  induction before with
  | nil => exact if_pos ⟨num, entry⟩
  | cons y before ih =>
    rw [List.cons_append, joinAfter, if_neg (h y List.mem_cons_self), ih fun z hz => h z (List.mem_cons_of_mem _ hz)]
    rfl

theorem zip_take_length {α β : Type} (l : List α) (m : List β) : l.zip (m.take l.length) = l.zip m := by
  induction l generalizing m with
  | nil => rfl
  | cons a l ih =>
    cases m with
    | nil => rfl
    | cons b m => exact congrArg (List.cons (a, b)) (ih m)

/-- New records written join the records in use, and the end of their entries' lists. -/
theorem writeNew_spec (new : List (Nat × ShareRec)) (rs : List ShareRec) :
    (writeNew new rs).Perm (rs ++ new.map fun p => { p.2 with num := p.1 }) ∧
    (rs.Pairwise (fun a b => a.entry ≤ b.entry) → (writeNew new rs).Pairwise (fun a b => a.entry ≤ b.entry) ∧
      ∀ n, entryRecords (writeNew new rs) n =
        entryRecords rs n ++ entryRecords (new.map fun p => { p.2 with num := p.1 }) n) := by
  induction new generalizing rs with
  | nil => exact ⟨by simp [writeNew], fun grouped => ⟨grouped, fun n => by simp [writeNew, entryRecords]⟩⟩
  | cons p new ih =>
    obtain ⟨perm, lists⟩ := ih (joinShare { p.2 with num := p.1 } rs)
    refine ⟨perm.trans ?_, fun grouped => ?_⟩
    · rw [List.map_cons]
      exact ((joinShare_perm ..).append_right _).trans List.perm_middle.symm
    · obtain ⟨grouped', each⟩ := lists (joinShare_grouped _ grouped)
      refine ⟨grouped', fun n => (each n).trans ?_⟩
      by_cases own : p.2.entry = n
      · subst own
        have first : entryRecords (joinShare { p.2 with num := p.1 } rs) p.2.entry = _ :=
          entryRecords_joinShare_self { p.2 with num := p.1 } rs grouped
        rw [first, List.append_assoc]
        simp [entryRecords]
      · rw [entryRecords_joinShare_ne { p.2 with num := p.1 } rs own]
        simp [entryRecords, own]

/-! ### A replan's completion (R88, R99, R115, R116) -/

theorem advanceStart_eq (p : Plan) (s : State) : advanceStart p s = { s with eval := { s.eval with
    start := match p.lastUnit with
      | none => s.eval.start
      | some i => (i + 1) % 4096 } } := by
  unfold advanceStart
  cases p.lastUnit <;> rfl

/-- The record that an enlargement raises: the one it names, or the continuation numbered for its placeholder. -/
def enlargedNumber (p : Plan) (numbers : List Nat) (g : Enlargement) : Nat :=
  if g.target < 32768 then g.target
  else (numbers.take p.continuations.length).getD (g.target - 32768) g.target

theorem cutOrReduced_eq (t : Nat) (p : Plan) (r : ShareRec) : cutOrReduced t p r =
    if r.num ∈ p.cut then { r with last := t }
    else match p.reduced.find? fun q => q.1 == r.num with
      | none => r
      | some q => { r with power := q.2 } := by
  unfold cutOrReduced
  simp only [List.contains_iff_mem]
  split_ifs
  · rfl
  · cases p.reduced.find? fun q => q.1 == r.num <;> rfl

/-- A record raised by the enlargement that names it. -/
def raisedBy (p : Plan) (numbers : List Nat) (r : ShareRec) : ShareRec :=
  match p.enlarged.find? fun g => (if Config.pool ≤ g.target then
      (numbers.take p.continuations.length).getD (g.target - Config.pool) g.target else g.target) == r.num with
  | some g => { r with power := r.power + g.add }
  | none => r

theorem raisedBy_eq (p : Plan) (numbers : List Nat) (r : ShareRec) : raisedBy p numbers r =
    match p.enlarged.find? fun g => enlargedNumber p numbers g == r.num with
    | none => r
    | some g => { r with power := r.power + g.add } := by
  have named (g : Enlargement) : (if Config.pool ≤ g.target then
      (numbers.take p.continuations.length).getD (g.target - Config.pool) g.target else g.target) =
      enlargedNumber p numbers g := by
    unfold enlargedNumber
    have pool : Config.pool = 32768 := rfl
    rw [pool]
    by_cases h : g.target < 32768
    · rw [if_pos h, if_neg (by omega)]
    · rw [if_neg h, if_pos (by omega)]
  unfold raisedBy
  simp only [named]
  cases p.enlarged.find? fun g => enlargedNumber p numbers g == r.num <;> rfl

/-- The records that stay, each as the plan leaves it. -/
def recordsKept (t : Nat) (p : Plan) (rs : List ShareRec) : List ShareRec :=
  (rs.filter fun r => !p.removed.contains r.num).map (cutOrReduced t p)

/-- The continuations placed after the records they continue, under their numbers. -/
def recordsContinued (number : Nat) (cls : DirClass) (p : Plan) (numbers : List Nat) (rs : List ShareRec) :
    List ShareRec :=
  (p.continuations.zip numbers).foldl (fun rs q => joinAfter q.1.after
    { num := q.2, entry := number, unit := q.1.unit, cls := cls, power := q.1.power,
      first := q.1.first, last := q.1.last } rs) rs

theorem replanRecords_eq (t number : Nat) (e : Entry) (p : Plan) (rs : List ShareRec) :
    let kept := recordsKept t p rs
    let numbers := freeNumbers kept (p.continuations.length + p.fresh.length)
    replanRecords t number e p rs = writeNew
      ((numbers.drop p.continuations.length).zip (p.fresh.map fun q =>
        { num := 0, entry := number, unit := q.1, cls := classOfProduct e.product, power := q.2,
          first := max (t + 1) e.first, last := e.first + e.count - 1 }))
      ((recordsContinued number (classOfProduct e.product) p numbers kept).map (raisedBy p numbers)) := by
  intro kept numbers
  unfold recordsContinued
  rw [← zip_take_length p.continuations]
  rfl

theorem recordsKept_eq (t : Nat) (p : Plan) (rs : List ShareRec) : recordsKept t p rs =
    (rs.filter fun r => r.num ∉ p.removed).map fun r =>
      if r.num ∈ p.cut then { r with last := t }
      else match p.reduced.find? fun q => q.1 == r.num with
        | none => r
        | some q => { r with power := q.2 } := by
  have gone (r : ShareRec) : (!p.removed.contains r.num) = decide (r.num ∉ p.removed) := by simp
  unfold recordsKept
  simp only [gone]
  exact List.map_congr_left fun r _ => cutOrReduced_eq t p r

theorem exec_replanComplete {s : State} {j : Job} {n : Nat} {e : Entry} (released : s.resetHeld = false)
    (job : s.eval.job = some j) (kind : j.kind = .replan n e) :
    exec .replanComplete s = .next (settle (dropJob (completeReplan j n e s))) := by
  refine (effect_of_released released takeReplanComplete).trans ?_
  rw [takeReplanComplete, job]
  dsimp only
  rw [kind]

/-- The entry with what a replan left uncovered, and its records. -/
def replanned (j : Job) (n : Nat) (e now : Entry) (s : State) : State :=
  setEntry n { now with uncovered := j.plan.target - j.plan.placed }
    (setShares (replanRecords j.frozen.slot n e j.plan s.shares) s)

theorem writeReplan_eq {j : Job} (works : j.plan.works = true) (n : Nat) (e now : Entry) (s : State) :
    writeReplan j n e now s = advanceStart j.plan
      (if j.plan.target - j.plan.placed ≠ 0 ∨ now.uncovered ≠ 0 then placeChange n false (replanned j n e now s)
        else replanned j n e now s) :=
  if_neg (by simp [works])

section

variable {s : State} {j : Job} {n : Nat} {e now : Entry} (found : entryOf s n = some now)
include found

theorem completeReplan_void (void : now.ref ≠ e.ref ∨ nonTerminal now.state = false) : completeReplan j n e s = s := by
  rw [completeReplan, found]
  exact if_pos void

variable (same : now.ref = e.ref) (live : nonTerminal now.state = true)
include same live

theorem completeReplan_overtaken (taken : j.boundaryTaken = true ∨ j.awardTaken = true) :
    completeReplan j n e s = markEntries [n] s := by
  rw [completeReplan, found]
  exact (if_neg (by simp [same, live])).trans (if_pos taken)

theorem completeReplan_written (boundary : j.boundaryTaken = false) (award : j.awardTaken = false) :
    completeReplan j n e s =
      if j.disturbed then markEntries [n] (writeReplan j n e now s) else writeReplan j n e now s := by
  rw [completeReplan, found]
  exact (if_neg (by simp [same, live])).trans (if_neg (by simp [boundary, award]))

end

/-- Settles O32: by the records' equations, and the checks of a completion in their order. -/
theorem replanCompletes : Obligations.ReplanCompletes := by
  refine ⟨fun n r x before after apart => ⟨joinAfter_found after apart, joinAfter_absent apart⟩,
    fun t number e p rs => ?_, fun s j n e released job kind => ?_⟩
  · intro cls kept numbers continued named raised
    have ofKept : recordsKept t p rs = kept := recordsKept_eq t p rs
    have ofClass : classOfProduct e.product = cls := by
      dsimp only [cls]
      cases e.product <;> rfl
    have ofRaised : (recordsContinued number cls p numbers kept).map (raisedBy p numbers) = raised :=
      List.map_congr_left fun r _ => raisedBy_eq p numbers r
    rw [replanRecords_eq, ofKept, ofClass, ofRaised]
  · intro dropped marked
    have done := exec_replanComplete released job kind
    refine ⟨fun free => ?_, fun now found => ⟨fun void => ?_, fun same live taken => ?_,
      fun same live boundary award idle => ?_, fun same live boundary award works => ?_⟩⟩
    · rw [done, completeReplan, free]
      rfl
    · rw [done, completeReplan_void found void]
      rfl
    · rw [done, completeReplan_overtaken found same live taken]
      rfl
    · have still : writeReplan j n e now s = s := if_pos idle
      rw [done, completeReplan_written found same live boundary award, still]
      cases j.disturbed <;> rfl
    · intro uncovered entries
      refine ⟨_, done, ?_⟩
      rw [completeReplan_written found same live boundary award, writeReplan_eq works, advanceStart_eq]
      by_cases listed : uncovered ≠ 0 ∨ now.uncovered ≠ 0
      · have notices := noticesOnly_raiseOn .tl .entry { replanned j n e now s with
          book := placeMember n false (replanned j n e now s).book }
        rw [if_pos listed, placeChange, raiseOn_eq_setLinks]
        rw [raiseOn_eq_setLinks] at notices
        cases j.disturbed
        · exact ⟨rfl, notices, rfl, rfl, fun covered before => absurd listed (by simp [covered, before]),
            fun _ => ⟨rfl, rfl⟩⟩
        · exact ⟨rfl, notices, rfl, rfl, fun covered before => absurd listed (by simp [covered, before]),
            fun _ => ⟨rfl, rfl⟩⟩
      · rw [if_neg listed]
        cases j.disturbed
        · exact ⟨rfl, NoticesOnly.refl s, rfl, rfl, fun _ _ => ⟨rfl, rfl⟩, fun h => absurd h listed⟩
        · exact ⟨rfl, NoticesOnly.refl s, rfl, rfl, fun _ _ => ⟨rfl, rfl⟩, fun h => absurd h listed⟩

end Sys2Proof.Machine

/-! PROOF. A TL job's completion: the numbers and records of an OFFER, what it books, and the answer of the request in
process (R57, R62, R89, R96, R99 to R104, R108). -/

namespace Sys2Proof.Machine

/-- The lowest numbers not in use, each once, as many as asked for where there are that many. -/
theorem freeNumbers_lowest (rs : List ShareRec) (k : Nat) :
    (freeNumbers rs k).Pairwise (· < ·) ∧
    (∀ n ∈ freeNumbers rs k, n < 32768 ∧ n ∉ rs.map ShareRec.num ∧
      ∀ m < n, m ∈ freeNumbers rs k ∨ m ∈ rs.map ShareRec.num) ∧
    (freeNumbers rs k).length ≤ k ∧ (k + rs.length ≤ 32768 → (freeNumbers rs k).length = k) := by
  rw [freeNumbers_eq_take]
  set free := (List.range' 0 32768).filter fun m => !(rs.map ShareRec.num).contains m with hfree
  have mem (m : Nat) : m ∈ free ↔ m < 32768 ∧ m ∉ rs.map ShareRec.num := by
    rw [hfree, List.mem_filter, List.mem_range'_1]
    simp
  have rising : free.Pairwise (· < ·) := List.Pairwise.filter _ (List.pairwise_lt_range' ..)
  have enough := length_filter_unused (rs.map ShareRec.num) 32768
  rw [← hfree, List.length_map] at enough
  refine ⟨rising.sublist (List.take_sublist ..), fun n hn => ?_, by simp, fun room => by simp; omega⟩
  obtain ⟨below, unused⟩ := (mem n).1 (List.mem_of_mem_take hn)
  refine ⟨below, unused, fun m lt => ?_⟩
  by_cases held : m ∈ rs.map ShareRec.num
  · exact .inr held
  · have listed : m ∈ free := (mem m).2 ⟨by omega, held⟩
    rw [← List.take_append_drop k free] at listed rising
    rcases List.mem_append.1 listed with first | later
    · exact .inl first
    · have := (List.pairwise_append.1 rising).2.2 n hn m later
      omega

theorem exec_tlJobComplete {s : State} {j : Job} (released : s.resetHeld = false) (job : s.eval.job = some j) :
    exec .tlJobComplete s = .next (settle (match j.kind with
      | .quote q => dropJob (answerTl .done (quoteForm j.frozen q) s)
      | .offer o => dropJob (completeOffer j o s)
      | .replan _ _ => s)) := by
  refine (effect_of_released released takeTlComplete).trans ?_
  rw [takeTlComplete, job] <;> rfl

theorem answerTl_eq {s : State} {p : InProcess} (busy : (linkOf s .tl).inProcess = some p) (code : AnswerCode)
    (result : List Byte) : answerTl code result s = oweAnswer .tl p.tag code result true s := by
  rw [answerTl, busy]

/-- The Evaluator falls free before or after the answer is owed. -/
theorem dropJob_oweAnswer (tag : Byte) (code : AnswerCode) (result : List Byte) (s : State) :
    dropJob (oweAnswer .tl tag code result true s) = oweAnswer .tl tag code result true (dropJob s) := rfl

theorem lowestFreeEntry_of_lowest {s : State} {n : Nat} (bound : n < 1024) (free : entryOf s n = none)
    (below : ∀ k < n, (entryOf s k).isSome = true) : lowestFreeEntry s = some n := by
  refine List.find?_eq_some_iff_append.2 ⟨by rw [free]; rfl, List.range n, List.range' (n + 1) (1023 - n), ?_, fun k hk => ?_⟩
  · rw [show (Config.entries : Nat) = 1024 from rfl, List.range_eq_range', List.range_eq_range',
      show 1024 = n + (1024 - n) by omega, ← List.range'_append_1, show 1024 - n = 1023 - n + 1 by omega,
      List.range'_succ, Nat.zero_add]
  · have := below k (List.mem_range.1 hk)
    cases found : entryOf s k with
    | none => rw [found] at this; cases this
    | some e => rfl

/-- An offer admitted: its entry, its records, the start index and the flag of a disturbed job. -/
theorem admitOffer_eq (j : Job) (o : OfferReq) (n booked : Nat) (s : State) : admitOffer j o n booked s =
    { setShares (writeNew ((freeNumbers s.shares (offerRecords j o n booked).length).zip (offerRecords j o n booked))
        s.shares) (setEntry n (offeredEntry o booked) s) with
      eval := { s.eval with
        start := match j.plan.lastUnit with
          | none => s.eval.start
          | some i => (i + 1) % 4096
        replans := if j.disturbed then setInsert s.eval.replans n else s.eval.replans } } := by
  dsimp only [admitOffer]
  rw [advanceStart_eq]
  cases j.disturbed <;> rfl

/-- Settles O33: by the numbers and lists of written records, the outcome of an OFFER's walk, and each answer. -/
theorem tlJobCompletes : Obligations.TlJobCompletes := by
  refine ⟨fun rs k => freeNumbers_lowest rs k, fun new rs => writeNew_spec new rs, fun j o number booked => ?_,
    fun j o => ?_, fun s j p released job busy => ?_⟩
  · have ofClass : classOfProduct o.product = (match o.product with
        | .fsr => .symmetric
        | .rsu => .up
        | .rsd => .down : DirClass) := by cases o.product <;> rfl
    intro planned
    unfold offerRecords
    rw [ofClass] <;> rfl
  · intro supported
    refine ⟨fun whole => if_pos whole, fun part one free => (if_neg part).trans (if_pos ⟨one, free⟩),
      fun part none room => (if_neg part).trans ((if_neg fun h => ?_).trans ?_),
      fun part none full => (if_neg part).trans ((if_neg fun h => ?_).trans ?_)⟩
    · obtain ⟨one, free⟩ := h
      rcases none with none | exact_
      · exact absurd one (by rw [show supportedKw j.plan.placed j.frozen.holdback = 0 from none]; decide)
      · simp [exact_] at free
    · rw [room]
      rfl
    · obtain ⟨one, free⟩ := h
      rcases none with none | exact_
      · exact absurd one (by rw [show supportedKw j.plan.placed j.frozen.holdback = 0 from none]; decide)
      · simp [exact_] at free
    · rw [full]
      rfl
  · intro free
    have done := exec_tlJobComplete released job
    refine ⟨fun q kind => ?_, fun o kind => ⟨fun code refused => ?_, fun booked outcome late => ?_,
      fun booked n outcome early bound unused below => ?_⟩⟩
    · rw [done, kind]
      dsimp only
      rw [answerTl_eq busy]
      rfl
    · rw [done, kind]
      dsimp only
      rw [completeOffer, refused]
      dsimp only
      rw [answerTl_eq busy]
      rfl
    · rw [done, kind]
      dsimp only
      rw [completeOffer, outcome]
      dsimp only
      rw [bookOffer, if_pos late, answerTl_eq busy]
      rfl
    · intro e new
      have still : (linkOf (admitOffer j o n booked s) .tl).inProcess = some p := by
        rw [admitOffer_eq]
        exact busy
      refine ⟨dropJob (admitOffer j o n booked s), ?_, ?_, ?_⟩
      · rw [done, kind]
        dsimp only
        rw [completeOffer, outcome]
        dsimp only
        rw [bookOffer, if_neg (by omega), lowestFreeEntry_of_lowest bound unused below]
        dsimp only
        rw [answerTl_eq still, dropJob_oweAnswer]
        rfl
      · rw [admitOffer_eq]
        rfl
      · rw [admitOffer_eq]
        cases j.disturbed <;> rfl

end Sys2Proof.Machine

/-! PROOF. What a job plans: backing targets, the walk and its order, an OFFER's plan, and the relief of a record (R97,
R98, R100, R101, R113). -/

namespace Sys2Proof.Machine

/-! ### Backing targets (R97) -/

theorem ceilDiv_le_iff {a b k : Nat} (h : 0 < b) : ceilDiv a b ≤ k ↔ a ≤ k * b := by
  unfold ceilDiv
  rw [Nat.div_le_iff_le_mul_add_pred h]
  rw [Nat.mul_comm b k]
  omega

/-- The least multiple of 10 W that yields the quantity once the holdback is off. -/
theorem backingTarget_least {quantity h : Nat} (bound : h < 1000) (k : Nat) :
    backingTarget quantity h ≤ k / 10 * 10 ↔ quantity * 1000000 ≤ k / 10 * 10 * (1000 - h) := by
  unfold backingTarget
  rw [Nat.mul_le_mul_right_iff (by decide), ceilDiv_le_iff (by decide), ceilDiv_le_iff (by omega)]

/-! ### The visiting order (R98) -/

theorem walkOrder_perm (f : Frozen) : (walkOrder f).Perm (f.units.map Prod.fst) := by
  unfold walkOrder
  have same : (fun i => decide (i < f.start)) = fun i => !decide (f.start ≤ i) := funext fun i => by
    rw [Bool.eq_iff_iff]
    simp
  dsimp only
  rw [same]
  exact List.filter_append_perm ..

theorem walkOrder_rising {f : Frozen} (rising : Ascending f.units) (bound : ∀ p ∈ f.units, p.1 < 4096)
    (start : f.start < 4096) :
    (walkOrder f).Pairwise fun a b => (a + 4096 - f.start) % 4096 < (b + 4096 - f.start) % 4096 := by
  have below : ∀ i ∈ f.units.map Prod.fst, i < 4096 := fun i hi => by
    obtain ⟨p, hp, rfl⟩ := List.mem_map.1 hi
    exact bound p hp
  have above (p : Nat → Bool) (i : Nat) (h : i ∈ (f.units.map Prod.fst).filter p) : i < 4096 ∧ p i = true :=
    ⟨below i (List.mem_filter.1 h).1, (List.mem_filter.1 h).2⟩
  unfold walkOrder
  refine List.pairwise_append.2 ⟨?_, ?_, fun a ha b hb => ?_⟩
  · refine List.Pairwise.imp_of_mem (fun {a b} ha hb lt => ?_) (List.Pairwise.filter _ rising)
    obtain ⟨ra, sa⟩ := above _ _ ha
    obtain ⟨rb, sb⟩ := above _ _ hb
    have sa := of_decide_eq_true sa
    have sb := of_decide_eq_true sb
    omega
  · refine List.Pairwise.imp_of_mem (fun {a b} ha hb lt => ?_) (List.Pairwise.filter _ rising)
    obtain ⟨ra, sa⟩ := above _ _ ha
    obtain ⟨rb, sb⟩ := above _ _ hb
    have sa := of_decide_eq_true sa
    have sb := of_decide_eq_true sb
    omega
  · obtain ⟨ra, sa⟩ := above _ _ ha
    obtain ⟨rb, sb⟩ := above _ _ hb
    have sa := of_decide_eq_true sa
    have sb := of_decide_eq_true sb
    omega

/-! ### One visit (R98, R101) -/

/-- A visit may place power on the unit: the walk goes on, no record of another range is there, and there is enough. -/
def MayPlace (f : Frozen) (shares : List ShareRec) (k : WalkTask) (w : Walk) (i : Nat) : Prop :=
  w.remaining ≠ 0 ∧ w.stopped = false ∧ (∀ r ∈ overlapping k shares i, sameRange k r = true) ∧
    f.minShare ≤ walkPower f shares k w i ∧ walkPower f shares k w i ≠ 0

theorem walkUnit_idle {f : Frozen} {shares : List ShareRec} {k : WalkTask} {w : Walk} {i : Nat}
    (h : ¬MayPlace f shares k w i) : walkUnit f shares k w i = w := by
  unfold walkUnit
  dsimp only
  by_cases ended : w.remaining = 0 ∨ w.stopped = true
  · exact if_pos ended
  rw [if_neg ended]
  by_cases range : ((overlapping k shares i).any fun r => !sameRange k r) = true
  · exact if_pos range
  rw [if_neg range]
  refine if_pos ?_
  by_contra enough
  push Not at ended enough
  refine h ⟨ended.1, by simpa using ended.2, fun r hr => ?_, enough.1, enough.2⟩
  simp only [List.any_eq_true, not_exists, not_and, Bool.not_eq_true', Bool.not_eq_false] at range
  exact range r hr

theorem walkUnit_places {f : Frozen} {shares : List ShareRec} {k : WalkTask} {w : Walk} {i : Nat}
    (h : MayPlace f shares k w i) : walkUnit f shares k w i =
      match overlapping k shares i with
      | r :: _ =>
        { walkPlaced f w i (walkPower f shares k w i) with
          enlarged := w.enlarged ++ [{ target := r.num, unit := i, add := walkPower f shares k w i }] }
      | [] =>
        if k.free ≤ w.fresh.length then { w with stopped := true }
        else { walkPlaced f w i (walkPower f shares k w i) with
          fresh := w.fresh ++ [(i, walkPower f shares k w i)] } := by
  obtain ⟨more, goes, range, enough, some⟩ := h
  unfold walkUnit
  dsimp only
  rw [if_neg (by simp [more, goes]), if_neg (by simpa using range), if_neg (by omega)]
  rfl

theorem mem_overlapping {k : WalkTask} {shares : List ShareRec} {i : Nat} : overlapping k shares i =
    shares.filter fun r => some r.entry = k.entry ∧ r.unit = i ∧ r.first ≤ k.first + k.count - 1 ∧ k.first ≤ r.last := by
  unfold overlapping walkLast
  exact List.filter_congr fun r _ => by
    rw [Bool.eq_iff_iff]
    simp [and_assoc]

theorem sameRange_iff (k : WalkTask) (r : ShareRec) :
    sameRange k r = true ↔ r.first = k.first ∧ r.last = k.first + k.count - 1 := by
  rw [sameRange, Bool.and_eq_true, decide_eq_true_eq, decide_eq_true_eq]
  rfl

/-- What a power placed leaves of the target and takes of its group's room. -/
theorem used_walkPlaced (f : Frozen) (w : Walk) (i p : Nat) (rising : Ascending w.used) :
    Ascending (walkPlaced f w i p).used ∧ ∀ j, tableGet 0 (walkPlaced f w i p).used j =
      tableGet 0 w.used j + if j = (frozenUnit f i).feeder then p else 0 := by
  refine ⟨ascending_tableInsert rising .., fun j => ?_⟩
  unfold walkPlaced tableGet
  dsimp only
  rw [tableFind_tableInsert]
  by_cases own : j = (frozenUnit f i).feeder
  · rw [if_pos own, if_pos own, own]
    rfl
  · rw [if_neg own, if_neg own, Nat.add_zero]

/-! ### An OFFER's plan (R97, R98, R100) -/

/-- An OFFER books at most what it asked for: the placed backing supports less when it is below the target. -/
theorem booked_le {f : Frozen} {o : OfferReq} {j : Job} {booked : Nat} (holdback : f.holdback < 1000)
    (target : j.plan.target = backingTarget o.quantity f.holdback) (part : j.plan.placed ≤ j.plan.target)
    (tens : j.plan.placed % 10 = 0) (frozen : j.frozen = f) (h : offerOutcome j o = .ok booked) :
    booked ≤ o.quantity ∧ (o.exact = true → booked = o.quantity) := by
  by_cases whole : j.plan.placed = j.plan.target
  · have asked : offerOutcome j o = .ok o.quantity := if_pos whole
    cases asked.symm.trans h
    exact ⟨le_rfl, fun _ => rfl⟩
  by_cases clamped : 1 ≤ supportedKw j.plan.placed j.frozen.holdback ∧ o.exact = false
  · have supported : offerOutcome j o = .ok (supportedKw j.plan.placed j.frozen.holdback) :=
      (if_neg whole).trans (if_pos clamped)
    obtain ⟨one, free⟩ := clamped
    cases supported.symm.trans h
    refine ⟨?_, fun exact_ => by simp [exact_] at free⟩
    have short : ¬backingTarget o.quantity f.holdback ≤ j.plan.placed / 10 * 10 := by omega
    rw [backingTarget_least holdback] at short
    unfold supportedKw
    rw [frozen]
    have ten : j.plan.placed / 10 * 10 = j.plan.placed := by omega
    rw [ten] at short
    omega
  · have refused : offerOutcome j o = .error (if j.plan.poolStopped then .poolFull else .insufficient) :=
      (if_neg whole).trans (if_neg clamped)
    cases refused.symm.trans h

theorem overCommitted_iff (f : Frozen) (u : FrozenUnit) (cls : DirClass) (recs : List ShareRec) (t : Nat) :
    overCommitted f u cls recs t = true ↔
      (countsUp cls = true ∧ ((u.soc - u.floor) * u.energy / 1000 * u.eta / 1000 < spokenFor f countsUp recs t ∨
        u.pd < heldPower countsUp recs t)) ∨
      (countsDown cls = true ∧ ((u.ceiling - u.soc) * u.energy / 1000 < spokenFor f countsDown recs t ∨
        u.pc < heldPower countsDown recs t)) := by
  simp only [overCommitted, overIn, Bool.or_eq_true, Bool.and_eq_true, decide_eq_true_eq]
  rfl

theorem sum_tens {l : List Nat} (h : ∀ x ∈ l, x % 10 = 0) : l.sum % 10 = 0 := by
  induction l with
  | nil => rfl
  | cons x l ih =>
    have := h x List.mem_cons_self
    have := ih fun y hy => h y (List.mem_cons_of_mem _ hy)
    rw [List.sum_cons]
    omega

end Sys2Proof.Machine

/-! PROOF. A replan's cuts and reliefs: what becomes of each record of the entry, and of the copy (R111 to R113). -/

namespace Sys2Proof.Machine

/-! ### What becomes of one record (R112, R113) -/

/-- A record stays, is given up from the next slot on, is lowered in place, or is cut and continued with less. -/
inductive Fate where
  | stays
  | off
  | lowered (left : Nat)
  | continued (left : Nat)

/-- The fate of a record on the copy as it stands. -/
def fateOf (f : Frozen) (n : Nat) (w : Repair) (r : ShareRec) : Fate :=
  if (frozenUnit f r.unit).contributing then
    if reliefOf f w.shares n r = 0 then .stays
    else if r.power - reliefOf f w.shares n r < f.minShare then .off
    else if f.slot < r.first then .lowered (r.power - reliefOf f w.shares n r)
    else if repairFree f w = 0 ∨ 16 ≤ (w.shares.filter fun x => x.unit == r.unit).length then .off
    else .continued (r.power - reliefOf f w.shares n r)
  else .off

/-- The record that continues another from slot `n` on, under its placeholder. -/
def continuation (n : Nat) (w : Repair) (r : ShareRec) (left : Nat) : ShareRec :=
  { num := placeholder w.continuations.length, entry := r.entry, unit := r.unit, cls := r.cls, power := left,
    first := n, last := r.last }

/-- A repair in which a record meets its fate. -/
def meet (f : Frozen) (n : Nat) (w : Repair) (r : ShareRec) : Fate → Repair
  | .stays => w
  | .off => giveUp f.slot w r
  | .lowered left =>
    { w with shares := w.shares.map fun x => if x.num = r.num then { x with power := left } else x
             reduced := w.reduced ++ [(r.num, left)], removedPower := w.removedPower + (r.power - left) }
  | .continued left =>
    { w with
      shares := joinAfter r.num (continuation n w r left)
        (w.shares.map fun x => if x.num = r.num then { x with last := f.slot } else x)
      cut := w.cut ++ [r.num]
      continuations := w.continuations ++ [{ after := r.num, unit := r.unit, power := left, first := n, last := r.last }]
      removedPower := w.removedPower + (r.power - left) }

theorem relieve_eq_meet {f : Frozen} {n : Nat} {r : ShareRec} (h : (frozenUnit f r.unit).contributing = true)
    (w : Repair) : relieve f n w r = meet f n w r (fateOf f n w r) := by
  have whole : r.power - (r.power - reliefOf f w.shares n r) = reliefOf f w.shares n r := by
    have := (reliefOf_spec f w.shares n r).1
    omega
  have records : Config.unitRecords = 16 := rfl
  dsimp only [relieve, fateOf]
  rw [if_pos h, records]
  by_cases none : reliefOf f w.shares n r = 0
  · rw [if_pos none, if_pos none]
    rfl
  rw [if_neg none, if_neg none]
  by_cases small : r.power - reliefOf f w.shares n r < f.minShare
  · rw [if_pos small, if_pos small]
    rfl
  rw [if_neg small, if_neg small]
  by_cases later : f.slot < r.first
  · rw [if_pos later, if_pos later]
    dsimp only [meet]
    rw [whole]
  rw [if_neg later, if_neg later]
  by_cases full : repairFree f w = 0 ∨ 16 ≤ (w.shares.filter fun x => x.unit == r.unit).length
  · rw [if_pos full, if_pos full]
    rfl
  · rw [if_neg full, if_neg full]
    dsimp only [meet]
    rw [whole]
    rfl

theorem cutLost_eq_meet {f : Frozen} {r : ShareRec} (h : (frozenUnit f r.unit).contributing = false) (n : Nat)
    (w : Repair) : cutLost f w r = meet f n w r (fateOf f n w r) := by
  have lost : ¬(frozenUnit f r.unit).contributing = true := by simp [h]
  rw [cutLost, fateOf, if_neg lost, if_neg lost]
  rfl

theorem cutLost_of_contributing {f : Frozen} {r : ShareRec} (h : (frozenUnit f r.unit).contributing = true)
    (w : Repair) : cutLost f w r = w := if_pos h

/-! ### The records in their order -/

/-- A repair in which records meet their fates one after another. -/
def mended (f : Frozen) (n : Nat) (w : Repair) (rs : List ShareRec) : Repair :=
  rs.foldl (fun w r => meet f n w r (fateOf f n w r)) w

/-- The records with their fates. -/
def fates (f : Frozen) (n : Nat) : Repair → List ShareRec → List (ShareRec × Fate)
  | _, [] => []
  | w, r :: rs => (r, fateOf f n w r) :: fates f n (meet f n w r (fateOf f n w r)) rs

theorem mended_append (f : Frozen) (n : Nat) (w : Repair) (as bs : List ShareRec) :
    mended f n w (as ++ bs) = mended f n (mended f n w as) bs := List.foldl_append ..

theorem fates_append (f : Frozen) (n : Nat) (w : Repair) (as bs : List ShareRec) :
    fates f n w (as ++ bs) = fates f n w as ++ fates f n (mended f n w as) bs := by
  induction as generalizing w with
  | nil => rfl
  | cons r as ih => exact congrArg (List.cons _) (ih _)

theorem fates_records (f : Frozen) (n : Nat) (w : Repair) (rs : List ShareRec) : (fates f n w rs).map Prod.fst = rs := by
  induction rs generalizing w with
  | nil => rfl
  | cons r rs ih => exact congrArg (List.cons r) (ih _)

/-- The records a replan works on, those on lost units first. -/
def workOrder (f : Frozen) (rs : List ShareRec) : List ShareRec :=
  (rs.filter fun r => !(frozenUnit f r.unit).contributing) ++ rs.filter fun r => (frozenUnit f r.unit).contributing

theorem workOrder_perm (f : Frozen) (rs : List ShareRec) : (workOrder f rs).Perm rs :=
  List.perm_append_comm.trans (List.filter_append_perm ..)

theorem repair_eq_mended (f : Frozen) (n : Nat) (rs : List ShareRec) (w : Repair) :
    (rs.filter fun r => (frozenUnit f r.unit).contributing).foldl (relieve f n) (rs.foldl (cutLost f) w) =
      mended f n w (workOrder f rs) := by
  have lost (rs : List ShareRec) (w : Repair) : rs.foldl (cutLost f) w =
      mended f n w (rs.filter fun r => !(frozenUnit f r.unit).contributing) := by
    induction rs generalizing w with
    | nil => rfl
    | cons r rs ih =>
      rw [List.foldl_cons, ih]
      cases h : (frozenUnit f r.unit).contributing with
      | true => rw [cutLost_of_contributing h, List.filter_cons_of_neg (by simp [h])]
      | false =>
        rw [cutLost_eq_meet h n, List.filter_cons_of_pos (by simp [h])]
        rfl
  have kept (rs : List ShareRec) (w : Repair) (all : ∀ r ∈ rs, (frozenUnit f r.unit).contributing = true) :
      rs.foldl (relieve f n) w = mended f n w rs := by
    induction rs generalizing w with
    | nil => rfl
    | cons r rs ih =>
      rw [List.foldl_cons, relieve_eq_meet (all r List.mem_cons_self), ih _ fun q hq => all q (List.mem_cons_of_mem _ hq)]
      rfl
  rw [kept _ _ fun r hr => (List.mem_filter.1 hr).2, lost, workOrder, mended_append]

/-! ### What the fates leave in the plan -/

/-- A fate's conditions. -/
def Fits (f : Frozen) (r : ShareRec) : Fate → Prop
  | .stays => (frozenUnit f r.unit).contributing = true
  | .off => True
  | .lowered left => f.slot < r.first ∧ (frozenUnit f r.unit).contributing = true ∧ f.minShare ≤ left ∧ left < r.power
  | .continued left => r.first ≤ f.slot ∧ (frozenUnit f r.unit).contributing = true ∧ f.minShare ≤ left ∧ left < r.power

theorem fits_fateOf (f : Frozen) (n : Nat) (w : Repair) (r : ShareRec) : Fits f r (fateOf f n w r) := by
  have le := (reliefOf_spec f w.shares n r).1
  unfold fateOf
  split_ifs with contributes none small later full
  · exact contributes
  · trivial
  · exact ⟨later, contributes, by omega, by omega⟩
  · trivial
  · exact ⟨by omega, contributes, by omega, by omega⟩
  · trivial

theorem fits_fates {f : Frozen} {n : Nat} {w : Repair} {rs : List ShareRec} {p : ShareRec × Fate}
    (h : p ∈ fates f n w rs) : Fits f p.1 p.2 := by
  induction rs generalizing w with
  | nil => cases h
  | cons r rs ih =>
    rcases List.mem_cons.1 h with rfl | h
    · exact fits_fateOf ..
    · exact ih h

def removedBy (t : Nat) (p : ShareRec × Fate) : Option Nat :=
  match p.2 with
  | .off => if p.1.first ≤ t then none else some p.1.num
  | _ => none

def cutBy (t : Nat) (p : ShareRec × Fate) : Option Nat :=
  match p.2 with
  | .off => if p.1.first ≤ t then some p.1.num else none
  | .continued _ => some p.1.num
  | _ => none

def loweredBy (p : ShareRec × Fate) : Option (Nat × Nat) :=
  match p.2 with
  | .lowered left => some (p.1.num, left)
  | _ => none

def continuedBy (n : Nat) (p : ShareRec × Fate) : Option Continuation :=
  match p.2 with
  | .continued left => some { after := p.1.num, unit := p.1.unit, power := left, first := n, last := p.1.last }
  | _ => none

/-- The power a fate takes off its record. -/
def takenBy (p : ShareRec × Fate) : Nat :=
  match p.2 with
  | .stays => 0
  | .off => p.1.power
  | .lowered left => p.1.power - left
  | .continued left => p.1.power - left

/-- The power a fate leaves its record from slot `n` on. -/
def leftBy (p : ShareRec × Fate) : Nat :=
  match p.2 with
  | .stays => p.1.power
  | .off => 0
  | .lowered left => left
  | .continued left => left

/-- The plan's lists of a repair follow the fates. -/
structure Follows (t n : Nat) (w : Repair) (fs : List (ShareRec × Fate)) (v : Repair) : Prop where
  removed : v.removed = w.removed ++ fs.filterMap (removedBy t)
  cut : v.cut = w.cut ++ fs.filterMap (cutBy t)
  reduced : v.reduced = w.reduced ++ fs.filterMap loweredBy
  continuations : v.continuations = w.continuations ++ fs.filterMap (continuedBy n)
  power : v.removedPower = w.removedPower + (fs.map takenBy).sum

theorem follows_meet (f : Frozen) (n : Nat) (w : Repair) (r : ShareRec) (fate : Fate) :
    Follows f.slot n w [(r, fate)] (meet f n w r fate) := by
  cases fate with
  | stays => constructor <;> simp [meet, removedBy, cutBy, loweredBy, continuedBy, takenBy]
  | off =>
    by_cases covers : r.first ≤ f.slot <;> constructor <;>
      simp [meet, giveUp, removedBy, cutBy, loweredBy, continuedBy, takenBy, covers]
  | lowered left => constructor <;> simp [meet, removedBy, cutBy, loweredBy, continuedBy, takenBy]
  | continued left => constructor <;> simp [meet, removedBy, cutBy, loweredBy, continuedBy, takenBy]

theorem Follows.trans {t n : Nat} {w u v : Repair} {as bs : List (ShareRec × Fate)} (h : Follows t n w as u)
    (g : Follows t n u bs v) : Follows t n w (as ++ bs) v where
  removed := by rw [g.removed, h.removed, List.filterMap_append, List.append_assoc]
  cut := by rw [g.cut, h.cut, List.filterMap_append, List.append_assoc]
  reduced := by rw [g.reduced, h.reduced, List.filterMap_append, List.append_assoc]
  continuations := by rw [g.continuations, h.continuations, List.filterMap_append, List.append_assoc]
  power := by rw [g.power, h.power, List.map_append, List.sum_append, Nat.add_assoc]

theorem follows_mended (f : Frozen) (n : Nat) (w : Repair) (rs : List ShareRec) :
    Follows f.slot n w (fates f n w rs) (mended f n w rs) := by
  induction rs generalizing w with
  | nil => constructor <;> simp [fates, mended]
  | cons r rs ih => exact (follows_meet f n w r _).trans (ih _)

/-- No more continuations than free numbers (R113). -/
theorem continuations_mended_le {f : Frozen} {n : Nat} {w : Repair} (h : w.continuations.length ≤ f.free)
    (rs : List ShareRec) : (mended f n w rs).continuations.length ≤ f.free := by
  induction rs generalizing w with
  | nil => exact h
  | cons r rs ih =>
    refine ih ?_
    rw [(follows_meet f n w r _).continuations]
    cases fate : fateOf f n w r with
    | continued left =>
      have room : repairFree f w ≠ 0 := by
        intro none
        unfold fateOf at fate
        simp [none] at fate
        split_ifs at fate
      simp only [repairFree] at room
      simp [continuedBy]
      omega
    | _ =>
      show (w.continuations ++ []).length ≤ f.free
      rwa [List.append_nil]

/-! ### A record's fate read back from the lists -/

/-- What a list keyed by record numbers holds for one record. -/
theorem find_filterMap {β : Type} {g : ShareRec × Fate → Option β} {key : β → Nat}
    (own : ∀ p b, g p = some b → key b = p.1.num) {fs : List (ShareRec × Fate)} (once : (fs.map fun p => p.1.num).Nodup)
    {p : ShareRec × Fate} (h : p ∈ fs) : (fs.filterMap g).find? (fun b => key b == p.1.num) = g p := by
  induction fs with
  | nil => cases h
  | cons q fs ih =>
    rw [List.map_cons, List.nodup_cons] at once
    obtain ⟨new, once⟩ := once
    have absent (l : List (ShareRec × Fate)) (others : ∀ x ∈ l, x.1.num ≠ q.1.num) :
        (l.filterMap g).find? (fun b => key b == q.1.num) = none := by
      refine List.find?_eq_none.2 fun b hb => ?_
      obtain ⟨x, hx, e⟩ := List.mem_filterMap.1 hb
      simpa [own x b e] using others x hx
    rcases List.mem_cons.1 h with rfl | later
    · have others := absent fs fun x hx e => new (List.mem_map.2 ⟨x, hx, e⟩)
      cases e : g p with
      | none => rw [List.filterMap_cons_none e, others]
      | some b => rw [List.filterMap_cons_some e, List.find?_cons_of_pos (by simp [own p b e])]
    · have apart : q.1.num ≠ p.1.num := fun e => new (List.mem_map.2 ⟨p, later, e.symm⟩)
      cases e : g q with
      | none => rw [List.filterMap_cons_none e, ih once later]
      | some b => rw [List.filterMap_cons_some e, List.find?_cons_of_neg (by simpa [own q b e] using apart), ih once later]

theorem mem_filterMap_iff {g : ShareRec × Fate → Option Nat} (own : ∀ p b, g p = some b → b = p.1.num)
    {fs : List (ShareRec × Fate)} (once : (fs.map fun p => p.1.num).Nodup) {p : ShareRec × Fate} (h : p ∈ fs) :
    p.1.num ∈ fs.filterMap g ↔ g p = some p.1.num := by
  constructor
  · intro listed
    obtain ⟨q, hq, e⟩ := List.mem_filterMap.1 listed
    have same : q = p := List.inj_on_of_nodup_map once hq h (own q _ e).symm
    exact same ▸ e
  · exact fun e => List.mem_filterMap.2 ⟨p, h, e⟩

theorem removedBy_own (t : Nat) (p : ShareRec × Fate) (b : Nat) (h : removedBy t p = some b) : b = p.1.num := by
  obtain ⟨r, fate⟩ := p
  cases fate <;> simp only [removedBy] at h
  case off =>
    split_ifs at h
    exact (Option.some.inj h).symm
  all_goals cases h

theorem cutBy_own (t : Nat) (p : ShareRec × Fate) (b : Nat) (h : cutBy t p = some b) : b = p.1.num := by
  obtain ⟨r, fate⟩ := p
  cases fate <;> simp only [cutBy] at h
  case off =>
    split_ifs at h
    exact (Option.some.inj h).symm
  case continued => exact (Option.some.inj h).symm
  all_goals cases h

theorem loweredBy_own (p : ShareRec × Fate) (b : Nat × Nat) (h : loweredBy p = some b) : b.1 = p.1.num := by
  obtain ⟨r, fate⟩ := p
  cases fate <;> simp only [loweredBy] at h
  case lowered => rw [← Option.some.inj h]
  all_goals cases h

theorem continuedBy_own (n : Nat) (p : ShareRec × Fate) (b : Continuation) (h : continuedBy n p = some b) :
    b.after = p.1.num := by
  obtain ⟨r, fate⟩ := p
  cases fate <;> simp only [continuedBy] at h
  case continued => rw [← Option.some.inj h]
  all_goals cases h

/-- The power a repair's lists leave a record. -/
def powerKept (v : Repair) (r : ShareRec) : Nat :=
  if r.num ∈ v.removed then 0
  else if r.num ∈ v.cut then
    (match v.continuations.find? fun c => c.after == r.num with
      | none => 0
      | some c => c.power)
  else match v.reduced.find? fun q => q.1 == r.num with
    | none => r.power
    | some q => q.2

/-- The repair that a replan begins with. -/
def unmended (f : Frozen) : Repair :=
  { shares := f.shares, removed := [], cut := [], reduced := [], continuations := [], removedPower := 0 }

section

variable {t n : Nat} {f : Frozen} {fs : List (ShareRec × Fate)} {v : Repair} (follows : Follows t n (unmended f) fs v)
  (once : (fs.map fun p => p.1.num).Nodup)
include follows once

theorem powerKept_of_fate {p : ShareRec × Fate} (h : p ∈ fs) : powerKept v p.1 = leftBy p := by
  have removed := mem_filterMap_iff (removedBy_own t) once h
  have cut := mem_filterMap_iff (cutBy_own t) once h
  have lowered := find_filterMap (key := Prod.fst) loweredBy_own once h
  have continued := find_filterMap (key := Continuation.after) (continuedBy_own n) once h
  unfold powerKept
  rw [follows.removed, follows.cut, follows.reduced, follows.continuations]
  simp only [unmended, List.nil_append, removed, cut, lowered, continued]
  obtain ⟨r, fate⟩ := p
  cases fate with
  | off => by_cases covers : r.first ≤ t <;> simp [removedBy, cutBy, continuedBy, leftBy, covers]
  | _ => simp [removedBy, cutBy, loweredBy, continuedBy, leftBy]

/-- What the fates take and what they leave make up the records' power (R115). -/
theorem power_balance (fits : ∀ p ∈ fs, Fits f p.1 p.2) :
    v.removedPower + ((fs.map Prod.fst).map (powerKept v)).sum = powerSum (fs.map Prod.fst) := by
  have each : (fs.map fun p => powerKept v p.1) = fs.map leftBy :=
    List.map_congr_left fun p hp => powerKept_of_fate follows once hp
  rw [follows.power, List.map_map, show powerKept v ∘ Prod.fst = fun p => powerKept v p.1 from rfl, each]
  have pair (p : ShareRec × Fate) (h : Fits f p.1 p.2) : takenBy p + leftBy p = p.1.power := by
    obtain ⟨r, fate⟩ := p
    cases fate with
    | stays => simp [takenBy, leftBy]
    | off => simp [takenBy, leftBy]
    | lowered left =>
      obtain ⟨-, -, -, lt⟩ := h
      exact Nat.sub_add_cancel lt.le
    | continued left =>
      obtain ⟨-, -, -, lt⟩ := h
      exact Nat.sub_add_cancel lt.le
  clear follows once each
  simp only [unmended, Nat.zero_add]
  induction fs with
  | nil => rfl
  | cons p fs ih =>
    have := pair p (fits p List.mem_cons_self)
    have := ih fun q hq => fits q (List.mem_cons_of_mem _ hq)
    simp only [List.map_cons, List.sum_cons, powerSum] at this ⊢
    omega

end

/-! ### The copy on a unit that the repair has not reached -/

theorem filter_joinAfter {u : Nat} {r : ShareRec} (h : r.unit ≠ u) (k : Nat) (rs : List ShareRec) :
    (joinAfter k r rs).filter (fun x => x.unit == u) = rs.filter fun x => x.unit == u := by
  induction rs with
  | nil => rfl
  | cons x rs ih =>
    rw [joinAfter]
    split_ifs
    · simp only [List.filter_cons, beq_iff_eq, h, if_false]
    · simp only [List.filter_cons, ih]

theorem filter_map_unit {u : Nat} {g : ShareRec → ShareRec} {rs : List ShareRec} (unit : ∀ x, (g x).unit = x.unit)
    (same : ∀ x ∈ rs, x.unit = u → g x = x) :
    (rs.map g).filter (fun x => x.unit == u) = rs.filter fun x => x.unit == u := by
  rw [List.filter_map, List.filter_congr (q := fun x => x.unit == u) fun x _ => by simp [unit]]
  refine (List.map_congr_left fun x hx => ?_).trans (List.map_id _)
  obtain ⟨listed, on⟩ := List.mem_filter.1 hx
  exact same x listed (by simpa using on)

/-- A record's fate leaves the records of another unit, whose numbers differ, as they are. -/
theorem filter_meet {u : Nat} {f : Frozen} {n : Nat} {w : Repair} {r : ShareRec} (other : r.unit ≠ u)
    (apart : ∀ x ∈ w.shares, x.unit = u → x.num ≠ r.num) (fate : Fate) :
    ((meet f n w r fate).shares.filter fun x => x.unit == u) = w.shares.filter fun x => x.unit == u := by
  have mapped (g : ShareRec → ShareRec) (unit : ∀ x, (g x).unit = x.unit) :
      ((w.shares.map fun x => if x.num = r.num then g x else x).filter fun x => x.unit == u) =
        w.shares.filter fun x => x.unit == u :=
    filter_map_unit (fun x => by split_ifs <;> simp [unit]) fun x hx on => if_neg (apart x hx on)
  cases fate with
  | stays => rfl
  | off =>
    dsimp only [meet, giveUp]
    split_ifs
    · exact mapped (fun x => { x with last := f.slot }) fun _ => rfl
    · rw [List.filter_filter]
      refine List.filter_congr fun x hx => ?_
      by_cases on : x.unit = u
      · simp [on, apart x hx on]
      · simp [on]
  | lowered left => exact mapped (fun x => { x with power := left }) fun _ => rfl
  | continued left =>
    dsimp only [meet]
    rw [filter_joinAfter (by exact other)]
    exact mapped (fun x => { x with last := f.slot }) fun _ => rfl

theorem filter_mended {u : Nat} {f : Frozen} {n : Nat} {w : Repair} {rs : List ShareRec} (others : ∀ r ∈ rs, r.unit ≠ u)
    (apart : ∀ x ∈ w.shares, x.unit = u → ∀ r ∈ rs, x.num ≠ r.num) :
    ((mended f n w rs).shares.filter fun x => x.unit == u) = w.shares.filter fun x => x.unit == u := by
  induction rs generalizing w with
  | nil => rfl
  | cons r rs ih =>
    have first := filter_meet (others r List.mem_cons_self) (f := f) (n := n) (w := w)
      (fun x hx on => apart x hx on r List.mem_cons_self) (fateOf f n w r)
    refine (ih (fun q hq => others q (List.mem_cons_of_mem _ hq)) fun x hx on q hq => ?_).trans first
    have kept : x ∈ w.shares.filter fun x => x.unit == u := first ▸ List.mem_filter.2 ⟨hx, by simp [on]⟩
    exact apart x (List.mem_filter.1 kept).1 on q (List.mem_cons_of_mem _ hq)

theorem reliefOf_congr {f : Frozen} {as bs : List ShareRec} {r : ShareRec}
    (h : (as.filter fun x => x.unit == r.unit) = bs.filter fun x => x.unit == r.unit) (n : Nat) :
    reliefOf f as n r = reliefOf f bs n r := by
  have burden : overWith f as n r = overWith f bs n r := funext fun d => by
    unfold overWith
    rw [h]
  unfold reliefOf
  rw [burden]

/-! ### The whole copy (R112, R113, R116) -/

theorem joinAfter_perm {k : Nat} {r : ShareRec} {rs : List ShareRec} (h : ∃ x ∈ rs, x.num = k ∧ x.entry = r.entry) :
    (joinAfter k r rs).Perm (r :: rs) := by
  induction rs with
  | nil => simp at h
  | cons y rs ih =>
    rw [joinAfter]
    split_ifs with here
    · exact .swap ..
    · obtain ⟨x, hx, own⟩ := h
      rcases List.mem_cons.1 hx with rfl | hx
      · exact absurd own here
      · exact ((ih ⟨x, hx, own⟩).cons y).trans (.swap ..)

/-- A record of the copy as the lists of a repair change it. -/
def changedRecord (t : Nat) (v : Repair) (r : ShareRec) : ShareRec :=
  if r.num ∈ v.cut then { r with last := t }
  else match v.reduced.find? fun q => q.1 == r.num with
    | none => r
    | some q => { r with power := q.2 }

/-- The continuations planned, each in place of the record it continues. -/
def continuedRecords (shares : List ShareRec) (cs : List Continuation) : List ShareRec :=
  (cs.mapIdx fun k c => shares.filterMap fun r =>
    if r.num = c.after then some { r with num := 32768 + k, power := c.power, first := c.first, last := c.last }
    else none).flatten

theorem changedRecord_num (t : Nat) (v : Repair) (r : ShareRec) : (changedRecord t v r).num = r.num := by
  unfold changedRecord
  split_ifs
  · rfl
  · cases v.reduced.find? fun q => q.1 == r.num <;> rfl

theorem placeholder_of_continued {shares : List ShareRec} {cs : List Continuation} {x : ShareRec}
    (h : x ∈ continuedRecords shares cs) : 32768 ≤ x.num := by
  obtain ⟨l, hl, hx⟩ := List.mem_flatten.1 h
  obtain ⟨k, hk, rfl⟩ := List.mem_mapIdx.1 hl
  obtain ⟨r, -, e⟩ := List.mem_filterMap.1 hx
  split_ifs at e
  rw [← Option.some.inj e]
  simp

/-- One record of a list of distinct numbers, picked by its number. -/
theorem filterMap_own {shares : List ShareRec} (once : (shares.map ShareRec.num).Nodup) {r : ShareRec} (h : r ∈ shares)
    (g : ShareRec → ShareRec) : (shares.filterMap fun x => if x.num = r.num then some (g x) else none) = [g r] := by
  obtain ⟨before, after, rfl⟩ := List.append_of_mem h
  rw [List.map_append, List.map_cons, List.nodup_append] at once
  obtain ⟨-, later, apart⟩ := once
  have first : ∀ x ∈ before, x.num ≠ r.num := fun x hx =>
    apart x.num (List.mem_map_of_mem hx) r.num List.mem_cons_self
  have last : ∀ x ∈ after, x.num ≠ r.num := fun x hx e => (List.nodup_cons.1 later).1 (e ▸ List.mem_map_of_mem hx)
  have none (l : List ShareRec) (others : ∀ x ∈ l, x.num ≠ r.num) :
      (l.filterMap fun x => if x.num = r.num then some (g x) else none) = [] :=
    List.filterMap_eq_nil_iff.2 fun x hx => if_neg (others x hx)
  rw [List.filterMap_append, none before first, List.filterMap_cons, none after last]
  simp

/-- The copy that the lists of a repair describe. -/
def copyOf (t : Nat) (shares : List ShareRec) (v : Repair) : List ShareRec :=
  ((shares.filter fun r => r.num ∉ v.removed).map (changedRecord t v)) ++ continuedRecords shares v.continuations

section

variable {t : Nat} {shares : List ShareRec} {v : Repair} {r : ShareRec}

/-- Rewriting one record of a described copy leaves the continuations, whose numbers are placeholders. -/
theorem map_continued (pool : r.num < 32768) (g : ShareRec → ShareRec) (cs : List Continuation) :
    ((continuedRecords shares cs).map fun x => if x.num = r.num then g x else x) = continuedRecords shares cs :=
  (List.map_congr_left fun x hx => if_neg (by have := placeholder_of_continued hx; omega)).trans (List.map_id _)

variable (notCut : r.num ∉ v.cut) (notReduced : (v.reduced.find? fun q => q.1 == r.num) = none)
include notCut notReduced

theorem changedRecord_fresh {x : ShareRec} (same : x.num = r.num) : changedRecord t v x = x := by
  unfold changedRecord
  rw [same, if_neg notCut, notReduced]

theorem changedRecord_cut (x : ShareRec) {w : Repair} (cut : w.cut = v.cut ++ [r.num]) (reduced : w.reduced = v.reduced) :
    changedRecord t w x = if (changedRecord t v x).num = r.num then { changedRecord t v x with last := t }
      else changedRecord t v x := by
  rw [changedRecord_num]
  by_cases same : x.num = r.num
  · rw [if_pos same, changedRecord_fresh notCut notReduced same, changedRecord, cut, if_pos (by simp [same])]
  · rw [if_neg same, changedRecord, changedRecord, cut, reduced]
    simp only [List.mem_append, List.mem_singleton, same, or_false]

theorem changedRecord_lowered (x : ShareRec) {w : Repair} {left : Nat} (cut : w.cut = v.cut)
    (reduced : w.reduced = v.reduced ++ [(r.num, left)]) :
    changedRecord t w x = if (changedRecord t v x).num = r.num then { changedRecord t v x with power := left }
      else changedRecord t v x := by
  rw [changedRecord_num]
  by_cases same : x.num = r.num
  · rw [if_pos same, changedRecord_fresh notCut notReduced same, changedRecord, cut, same, if_neg notCut, reduced,
      List.find?_append, notReduced]
    simp [same]
  · have other : ¬r.num = x.num := fun e => same e.symm
    rw [if_neg same, changedRecord, changedRecord, cut, reduced, List.find?_append]
    cases v.reduced.find? fun q => q.1 == x.num <;> simp [other]

end

/-- A fate rewrites the copy as it rewrites the lists. -/
theorem copyOf_meet {f : Frozen} {n : Nat} {v : Repair} {r : ShareRec} (once : (f.shares.map ShareRec.num).Nodup)
    (pool : ∀ x ∈ f.shares, x.num < 32768) (listed : r ∈ f.shares) (notRemoved : r.num ∉ v.removed)
    (notCut : r.num ∉ v.cut) (notReduced : (v.reduced.find? fun q => q.1 == r.num) = none)
    (copy : v.shares.Perm (copyOf f.slot f.shares v)) (fate : Fate) :
    (meet f n v r fate).shares.Perm (copyOf f.slot f.shares (meet f n v r fate)) := by
  have small := pool r listed
  have mapped (g : ShareRec → ShareRec) {w : Repair} (removed : w.removed = v.removed)
      (continuations : w.continuations = v.continuations)
      (changed : ∀ x, changedRecord f.slot w x =
        if (changedRecord f.slot v x).num = r.num then g (changedRecord f.slot v x) else changedRecord f.slot v x) :
      (v.shares.map fun x => if x.num = r.num then g x else x).Perm (copyOf f.slot f.shares w) := by
    refine (copy.map _).trans (.of_eq ?_)
    rw [copyOf, copyOf, List.map_append, map_continued small, removed, continuations, List.map_map]
    exact congrArg (· ++ _) (List.map_congr_left fun x _ => (changed x).symm)
  cases fate with
  | stays => exact copy
  | off =>
    dsimp only [meet, giveUp]
    split_ifs
    · exact mapped (fun x => { x with last := f.slot }) rfl rfl fun x => changedRecord_cut notCut notReduced x rfl rfl
    · refine (copy.filter _).trans (.of_eq ?_)
      rw [copyOf, copyOf, List.filter_append, List.filter_map, List.filter_filter]
      have continued : ((continuedRecords f.shares v.continuations).filter fun x => decide (x.num ≠ r.num)) =
          continuedRecords f.shares v.continuations :=
        List.filter_eq_self.2 fun x hx => by
          have := placeholder_of_continued hx
          simp only [ne_eq, decide_not, Bool.not_eq_true', decide_eq_false_iff_not]
          omega
      rw [continued]
      refine congrArg (· ++ _) (congrArg (List.map (changedRecord f.slot v)) (List.filter_congr fun x _ => ?_))
      simp only [Function.comp, changedRecord_num]
      by_cases same : x.num = r.num <;> simp [same]
  | lowered left =>
    exact mapped (fun x => { x with power := left }) rfl rfl fun x => changedRecord_lowered notCut notReduced x rfl rfl
  | continued left =>
    dsimp only [meet]
    have kept : r ∈ v.shares := by
      refine copy.mem_iff.2 (List.mem_append_left _ (List.mem_map.2 ⟨r, List.mem_filter.2 ⟨listed, by simpa using notRemoved⟩, ?_⟩))
      exact changedRecord_fresh notCut notReduced rfl
    have here : ∃ x ∈ v.shares.map fun x => if x.num = r.num then { x with last := f.slot } else x,
        x.num = r.num ∧ x.entry = (continuation n v r left).entry :=
      ⟨_, List.mem_map.2 ⟨r, kept, if_pos rfl⟩, rfl, rfl⟩
    refine (joinAfter_perm here).trans ?_
    have rest := mapped (fun x => { x with last := f.slot }) (w := { v with cut := v.cut ++ [r.num] }) rfl rfl
      fun x => changedRecord_cut notCut notReduced x rfl rfl
    have joined : continuedRecords f.shares (v.continuations ++
        [{ after := r.num, unit := r.unit, power := left, first := n, last := r.last }]) =
        continuedRecords f.shares v.continuations ++ [continuation n v r left] := by
      unfold continuedRecords
      rw [List.mapIdx_append, List.flatten_append]
      refine congrArg _ ?_
      simp only [List.mapIdx_cons, List.mapIdx_nil, List.flatten_cons, List.flatten_nil, List.append_nil]
      exact (filterMap_own once listed _).trans (by simp [continuation, placeholder, Config.pool])
    refine ((rest.cons _).trans ?_)
    unfold copyOf
    dsimp only
    rw [joined, ← List.append_assoc]
    exact (List.perm_append_singleton ..).symm

/-- After a repair the copy is the one its lists describe. -/
theorem shares_mended {f : Frozen} {n : Nat} (once : (f.shares.map ShareRec.num).Nodup)
    (pool : ∀ x ∈ f.shares, x.num < 32768) {rs : List ShareRec} (listed : ∀ r ∈ rs, r ∈ f.shares)
    (apart : (rs.map ShareRec.num).Nodup) :
    (mended f n (unmended f) rs).shares.Perm (copyOf f.slot f.shares (mended f n (unmended f) rs)) := by
  induction rs using List.reverseRecOn with
  | nil =>
    have still : f.shares.map (changedRecord f.slot (unmended f)) = f.shares :=
      (List.map_congr_left fun x _ => by simp [changedRecord, unmended]).trans (List.map_id _)
    refine .of_eq ?_
    rw [copyOf, show (mended f n (unmended f) []) = unmended f from rfl]
    simp only [unmended, List.not_mem_nil, not_false_eq_true, decide_true, List.filter_true, continuedRecords,
      List.mapIdx_nil, List.flatten_nil, List.append_nil]
    exact still.symm
  | append_singleton rs r ih =>
    rw [List.map_append, List.nodup_append] at apart
    obtain ⟨apart, -, others⟩ := apart
    have new (q : ShareRec) (hq : q ∈ rs) : q.num ≠ r.num := others q.num (List.mem_map_of_mem hq) r.num (by simp)
    have follows := follows_mended f n (unmended f) rs
    have fresh {β : Type} {g : ShareRec × Fate → Option β} {key : β → Nat} (own : ∀ p b, g p = some b → key b = p.1.num)
        (b : β) (hb : b ∈ (fates f n (unmended f) rs).filterMap g) : key b ≠ r.num := by
      obtain ⟨p, hp, e⟩ := List.mem_filterMap.1 hb
      rw [own p b e]
      exact new p.1 (by rw [← fates_records f n (unmended f) rs]; exact List.mem_map_of_mem hp)
    rw [mended_append]
    refine copyOf_meet once pool (listed r (by simp)) (fun h => ?_) (fun h => ?_) (List.find?_eq_none.2 fun q hq => ?_)
      (ih (fun q hq => listed q (List.mem_append_left _ hq)) apart) _
    · rw [follows.removed] at h
      exact fresh (key := id) (removedBy_own f.slot) _ h rfl
    · rw [follows.cut] at h
      exact fresh (key := id) (cutBy_own f.slot) _ h rfl
    · rw [follows.reduced] at hq
      simpa using fresh (key := Prod.fst) loweredBy_own q hq

end Sys2Proof.Machine

/-! PROOF. A replan's plan, and what every job plans (R97 to R101, R111 to R115). -/

namespace Sys2Proof.Machine

/-! ### The plan of a replan (R111 to R115) -/

/-- The first slot a replan plans for. -/
def replanFirst (f : Frozen) (e : Entry) : Nat := max (f.slot + 1) e.first

/-- The entry's records that reach the slots a replan plans for. -/
def reachingRecords (f : Frozen) (number : Nat) (e : Entry) : List ShareRec :=
  f.shares.filter fun r => r.entry == number && decide (replanFirst f e ≤ r.last)

/-- The repair that a replan's walk starts from. -/
def repairOf (f : Frozen) (number : Nat) (e : Entry) : Repair :=
  mended f (replanFirst f e) (unmended f) (workOrder f (reachingRecords f number e))

/-- The records a replan works on, with their fates. -/
def replanFates (f : Frozen) (number : Nat) (e : Entry) : List (ShareRec × Fate) :=
  fates f (replanFirst f e) (unmended f) (workOrder f (reachingRecords f number e))

/-- What a replan's walk is for. -/
def replanTask (f : Frozen) (number : Nat) (e : Entry) : WalkTask :=
  { product := e.product, first := replanFirst f e, count := lastSlot e + 1 - replanFirst f e
    free := f.free - (repairOf f number e).continuations.length, entry := some number }

theorem planReplan_past {f : Frozen} {e : Entry} (h : lastSlot e < replanFirst f e) (number : Nat) :
    planReplan f number e = Plan.nothing := if_pos h

section

variable {f : Frozen} {e : Entry} (h : replanFirst f e ≤ lastSlot e) (number : Nat)
include h

theorem planReplan_eq : planReplan f number e =
    let w := repairOf f number e
    let base : Plan := { Plan.nothing with
      works := true, removed := w.removed, cut := w.cut, reduced := w.reduced, continuations := w.continuations }
    if w.removedPower + e.uncovered = 0 then base
    else withWalk base (w.removedPower + e.uncovered)
      (walk f w.shares (replanTask f number e) (w.removedPower + e.uncovered)) := by
  have reaching : (entryRecords f.shares number).filter (fun r => decide (replanFirst f e ≤ r.last)) =
      reachingRecords f number e := by
    rw [entryRecords, List.filter_filter, reachingRecords]
    simp only [Bool.and_comm]
  have repair := repair_eq_mended f (replanFirst f e) (reachingRecords f number e) (unmended f)
  rw [← reaching] at repair
  simp only [replanTask, repairOf, ← reaching, ← repair]
  exact if_neg (not_lt.2 h)

theorem planReplan_lists :
    let p := planReplan f number e
    let w := repairOf f number e
    p.works = true ∧ p.removed = w.removed ∧ p.cut = w.cut ∧ p.reduced = w.reduced ∧
      p.continuations = w.continuations ∧ p.target = w.removedPower + e.uncovered := by
  intro p w
  have is : p = _ := planReplan_eq h number
  rw [is]
  dsimp only
  split_ifs with none
  · exact ⟨rfl, rfl, rfl, rfl, rfl, none.symm⟩
  · exact ⟨rfl, rfl, rfl, rfl, rfl, rfl⟩

theorem planReplan_idle (none : (planReplan f number e).target = 0) :
    (planReplan f number e).fresh = [] ∧ (planReplan f number e).enlarged = [] ∧
      (planReplan f number e).lastUnit = Option.none ∧ (planReplan f number e).placed = 0 := by
  obtain ⟨-, -, -, -, -, target⟩ := planReplan_lists h number
  rw [planReplan_eq h number]
  dsimp only
  rw [if_pos (target.symm.trans none)]
  exact ⟨rfl, rfl, rfl, rfl⟩

theorem planReplan_walk (some : (planReplan f number e).target ≠ 0) :
    let p := planReplan f number e
    let v := walk f (repairOf f number e).shares (replanTask f number e) p.target
    p.fresh = v.fresh ∧ p.enlarged = v.enlarged ∧ p.placed = p.target - v.remaining ∧ p.poolStopped = v.stopped ∧
      p.lastUnit = v.lastUnit := by
  obtain ⟨-, -, -, -, -, target⟩ := planReplan_lists h number
  intro p v
  have is : p = withWalk _ _ _ := (planReplan_eq h number).trans (if_neg (target ▸ some))
  rw [← target] at is
  rw [is]
  exact ⟨rfl, rfl, rfl, rfl, rfl⟩

end

/-! ### The records a replan works on (R111 to R113) -/

section

variable {f : Frozen} {number : Nat} {e : Entry}

theorem follows_repair : Follows f.slot (replanFirst f e) (unmended f) (replanFates f number e) (repairOf f number e) :=
  follows_mended ..

theorem record_of_fate {p : ShareRec × Fate} (h : p ∈ replanFates f number e) : p.1 ∈ reachingRecords f number e := by
  have listed : p.1 ∈ (replanFates f number e).map Prod.fst := List.mem_map_of_mem h
  rw [replanFates, fates_records] at listed
  exact (workOrder_perm ..).mem_iff.1 listed

theorem fate_of_record {r : ShareRec} (h : r ∈ reachingRecords f number e) :
    ∃ fate, (r, fate) ∈ replanFates f number e := by
  have listed : r ∈ (replanFates f number e).map Prod.fst := by
    rw [replanFates, fates_records]
    exact (workOrder_perm ..).mem_iff.2 h
  obtain ⟨p, hp, rfl⟩ := List.mem_map.1 listed
  exact ⟨p.2, hp⟩

theorem reachingRecords_sublist : (reachingRecords f number e).Sublist f.shares := List.filter_sublist

theorem fates_once (once : (f.shares.map ShareRec.num).Nodup) :
    ((replanFates f number e).map fun p => p.1.num).Nodup := by
  have records : ((replanFates f number e).map fun p => p.1.num) =
      (workOrder f (reachingRecords f number e)).map ShareRec.num := by
    rw [← fates_records f (replanFirst f e) (unmended f) (workOrder f (reachingRecords f number e)), List.map_map]
    rfl
  rw [records, ((workOrder_perm ..).map _).nodup_iff]
  exact once.sublist (reachingRecords_sublist.map _)

/-- A record cut was in force, and one removed was not; one lowered starts later; one continued was cut. -/
theorem mem_cut {k : Nat} (h : k ∈ (repairOf f number e).cut) :
    ∃ r ∈ reachingRecords f number e, r.num = k ∧ r.first ≤ f.slot := by
  rw [follows_repair.cut] at h
  obtain ⟨⟨r, fate⟩, hp, own⟩ := List.mem_filterMap.1 h
  refine ⟨r, record_of_fate hp, (cutBy_own _ _ _ own).symm, ?_⟩
  have fits := fits_fates hp
  cases fate with
  | off =>
    simp only [cutBy] at own
    split_ifs at own with covers
    exact covers
  | continued left => exact fits.1
  | stays => cases own
  | lowered left => cases own

theorem mem_removed {k : Nat} (h : k ∈ (repairOf f number e).removed) :
    ∃ r ∈ reachingRecords f number e, r.num = k ∧ f.slot < r.first := by
  rw [follows_repair.removed] at h
  obtain ⟨⟨r, fate⟩, hp, own⟩ := List.mem_filterMap.1 h
  refine ⟨r, record_of_fate hp, (removedBy_own _ _ _ own).symm, ?_⟩
  cases fate with
  | off =>
    simp only [removedBy] at own
    split_ifs at own with covers
    omega
  | _ => cases own

theorem mem_reduced {q : Nat × Nat} (h : q ∈ (repairOf f number e).reduced) :
    ∃ r ∈ reachingRecords f number e, r.num = q.1 ∧ f.slot < r.first ∧
      (frozenUnit f r.unit).contributing = true ∧ f.minShare ≤ q.2 ∧ q.2 < r.power := by
  rw [follows_repair.reduced] at h
  obtain ⟨⟨r, fate⟩, hp, own⟩ := List.mem_filterMap.1 h
  have fits := fits_fates hp
  cases fate with
  | lowered left =>
    cases own
    exact ⟨r, record_of_fate hp, rfl, fits⟩
  | _ => cases own

theorem mem_continuations {c : Continuation} (h : c ∈ (repairOf f number e).continuations) :
    ∃ r ∈ reachingRecords f number e, r.num = c.after ∧ r.num ∈ (repairOf f number e).cut ∧
      (frozenUnit f r.unit).contributing = true ∧ c.unit = r.unit ∧ c.first = replanFirst f e ∧ c.last = r.last ∧
      f.minShare ≤ c.power ∧ c.power < r.power := by
  rw [follows_repair.continuations] at h
  obtain ⟨⟨r, fate⟩, hp, own⟩ := List.mem_filterMap.1 h
  have fits := fits_fates hp
  cases fate with
  | continued left =>
    cases own
    obtain ⟨-, contributes, least, lt⟩ := fits
    refine ⟨r, record_of_fate hp, rfl, ?_, contributes, rfl, rfl, rfl, least, lt⟩
    rw [follows_repair.cut]
    exact List.mem_append_right _ (List.mem_filterMap.2 ⟨_, hp, rfl⟩)
  | _ => cases own

/-- A record given up is cut or removed, as it covers the current slot or not. -/
theorem given_up {r : ShareRec} (h : (r, Fate.off) ∈ replanFates f number e) :
    (r.first ≤ f.slot → r.num ∈ (repairOf f number e).cut) ∧
      (f.slot < r.first → r.num ∈ (repairOf f number e).removed) := by
  rw [follows_repair.cut, follows_repair.removed]
  exact ⟨fun covers => List.mem_append_right _ (List.mem_filterMap.2 ⟨_, h, if_pos covers⟩),
    fun later => List.mem_append_right _ (List.mem_filterMap.2 ⟨_, h, if_neg (not_le.2 later)⟩)⟩

theorem off_of_lost {r : ShareRec} {fate : Fate} (h : (r, fate) ∈ replanFates f number e)
    (lost : ¬(frozenUnit f r.unit).contributing = true) : fate = .off := by
  have fits := fits_fates h
  cases fate with
  | off => rfl
  | stays => exact absurd fits lost
  | lowered left => exact absurd fits.2.1 lost
  | continued left => exact absurd fits.2.1 lost

variable (once : (f.shares.map ShareRec.num).Nodup)
include once

/-- What the plan takes off the entry's records and leaves them make up their power (R115). -/
theorem replan_balance : (repairOf f number e).removedPower +
    ((reachingRecords f number e).map (powerKept (repairOf f number e))).sum = powerSum (reachingRecords f number e) := by
  have balance := power_balance follows_repair (fates_once (number := number) (e := e) once)
    fun p hp => fits_fates hp
  have perm := workOrder_perm f (reachingRecords f number e)
  rw [show (replanFates f number e).map Prod.fst = workOrder f (reachingRecords f number e) from fates_records ..,
    (perm.map _).sum_eq] at balance
  rw [balance, powerSum, powerSum, (perm.map _).sum_eq]

/-- On a unit with no other record of the entry's at work the fate is that on the frozen copy. -/
theorem fate_on_own_unit (units : ((reachingRecords f number e).map ShareRec.unit).Nodup) {r : ShareRec}
    (h : r ∈ reachingRecords f number e) (contributes : (frozenUnit f r.unit).contributing = true) :
    ∃ w : Repair, (r, fateOf f (replanFirst f e) w r) ∈ replanFates f number e ∧
      reliefOf f w.shares (replanFirst f e) r = reliefOf f f.shares (replanFirst f e) r ∧
      (w.shares.filter fun x => x.unit == r.unit) = (f.shares.filter fun x => x.unit == r.unit) ∧
      w.continuations.length < (reachingRecords f number e).length := by
  have perm := workOrder_perm f (reachingRecords f number e)
  obtain ⟨before, after, split⟩ := List.append_of_mem (perm.mem_iff.2 h)
  have apart : ((workOrder f (reachingRecords f number e)).map ShareRec.unit).Nodup :=
    (perm.map _).nodup_iff.2 units
  rw [split, List.map_append, List.map_cons, List.nodup_append] at apart
  obtain ⟨-, -, apart⟩ := apart
  have others : ∀ q ∈ before, q.unit ≠ r.unit := fun q hq =>
    apart q.unit (List.mem_map_of_mem hq) r.unit List.mem_cons_self
  have inCopy : ∀ q ∈ before, q ∈ f.shares := fun q hq =>
    reachingRecords_sublist.subset (perm.mem_iff.1 (split ▸ List.mem_append_left _ hq))
  have same := filter_mended (f := f) (n := replanFirst f e) (w := unmended f) others fun x hx on q hq num => by
    have : x = q := List.inj_on_of_nodup_map once hx (inCopy q hq) num
    exact others q hq (this ▸ on)
  refine ⟨mended f (replanFirst f e) (unmended f) before, ?_, reliefOf_congr same _, same, ?_⟩
  · rw [replanFates, split, fates_append]
    exact List.mem_append_right _ List.mem_cons_self
  · have follows := follows_mended f (replanFirst f e) (unmended f) before
    have length := congrArg List.length (fates_records f (replanFirst f e) (unmended f) before)
    rw [List.length_map] at length
    have total := perm.length_eq
    rw [split, List.length_append, List.length_cons] at total
    rw [follows.continuations]
    have := List.length_filterMap_le (continuedBy (replanFirst f e)) (fates f (replanFirst f e) (unmended f) before)
    simp only [unmended, List.nil_append]
    simp only [unmended] at this length
    omega

/-- The relief of a record alone on its unit, and how it is written. -/
theorem relief_met (units : ((reachingRecords f number e).map ShareRec.unit).Nodup) {r : ShareRec}
    (h : r ∈ reachingRecords f number e) (contributes : (frozenUnit f r.unit).contributing = true) :
    let v := repairOf f number e
    let d := reliefOf f f.shares (replanFirst f e) r
    (d = 0 → r.num ∉ v.cut ∧ r.num ∉ v.removed ∧ powerKept v r = r.power) ∧
    (d ≠ 0 → r.first ≤ f.slot → r.num ∈ v.cut) ∧
    (d ≠ 0 → f.slot < r.first → r.power - d < f.minShare → r.num ∈ v.removed) ∧
    (d ≠ 0 → r.power - d < f.minShare → powerKept v r = 0) ∧
    (d ≠ 0 → f.minShare ≤ r.power - d → f.slot < r.first → powerKept v r = r.power - d) ∧
    (d ≠ 0 → f.minShare ≤ r.power - d → r.first ≤ f.slot → (reachingRecords f number e).length ≤ f.free →
      (f.shares.filter fun x => x.unit == r.unit).length < 16 → powerKept v r = r.power - d) := by
  obtain ⟨w, met, relief, own, few⟩ := fate_on_own_unit once units h contributes
  have apart := fates_once (number := number) (e := e) once
  have kept := powerKept_of_fate follows_repair apart met
  have fate : fateOf f (replanFirst f e) w r = _ := if_pos contributes
  rw [relief] at fate
  intro v d
  have small (some : d ≠ 0) (less : r.power - d < f.minShare) : fateOf f (replanFirst f e) w r = .off :=
    fate.trans ((if_neg some).trans (if_pos less))
  refine ⟨fun none => ?_, fun some covers => ?_, fun some later less => ?_, fun some less => ?_,
    fun some enough later => ?_, fun some enough covers room bare => ?_⟩
  · rw [show fateOf f (replanFirst f e) w r = .stays from fate.trans (if_pos none)] at met kept
    refine ⟨fun cut => ?_, fun removed => ?_, kept⟩
    · rw [follows_repair.cut] at cut
      exact nomatch (mem_filterMap_iff (cutBy_own f.slot) apart met).1 cut
    · rw [follows_repair.removed] at removed
      exact nomatch (mem_filterMap_iff (removedBy_own f.slot) apart met).1 removed
  · by_cases less : r.power - d < f.minShare
    · exact (given_up (small some less ▸ met)).1 covers
    · have rest := fate.trans ((if_neg some).trans ((if_neg less).trans (if_neg (not_lt.2 covers))))
      split_ifs at rest with full
      · exact (given_up (rest ▸ met)).1 covers
      · show r.num ∈ (repairOf f number e).cut
        rw [rest] at met
        rw [follows_repair.cut]
        exact List.mem_append_right _ (List.mem_filterMap.2 ⟨_, met, rfl⟩)
  · exact (given_up (small some less ▸ met)).2 later
  · rw [small some less] at kept
    exact kept
  · rw [show fateOf f (replanFirst f e) w r = .lowered (r.power - d) from
      fate.trans ((if_neg some).trans ((if_neg (not_lt.2 enough)).trans (if_pos later)))] at kept
    exact kept
  · have goes : ¬(repairFree f w = 0 ∨ 16 ≤ (w.shares.filter fun x => x.unit == r.unit).length) := by
      rw [own]
      unfold repairFree
      omega
    rw [show fateOf f (replanFirst f e) w r = .continued (r.power - d) from fate.trans ((if_neg some).trans
      ((if_neg (not_lt.2 enough)).trans ((if_neg (not_lt.2 covers)).trans (if_neg goes))))] at kept
    exact kept

end

/-- Settles O34: by the least backing target, a walk visit by visit, an OFFER's plan, the relief of one record, and
what a replan makes of each record and of the copy. -/
theorem offerNeverBooksAboveItsQuantity : Obligations.OfferNeverBooksAboveItsQuantity := by
  refine ⟨fun quantity h bound => ?_, fun f rising bound start => ⟨walkOrder_perm f, walkOrder_rising rising bound start⟩,
    fun f shares k target => rfl, fun f shares k w i count => ?_, fun f o holdback => ?_, fun f shares n r => ?_,
    fun f number e => ?_⟩
  · have least := backingTarget_least (quantity := quantity) bound
    have tens : backingTarget quantity h % 10 = 0 := Nat.mul_mod_left ..
    refine ⟨tens, ?_, fun k ten enough => ?_, fun none => ?_⟩
    · have self := (least (backingTarget quantity h)).1 (by omega)
      rwa [show backingTarget quantity h / 10 * 10 = backingTarget quantity h by omega] at self
    · have whole : k / 10 * 10 = k := by omega
      exact ((least k).2 (enough.trans_eq (by rw [whole]))).trans_eq whole
    · subst none
      have whole : quantity * 1000 / 10 * 10 = quantity * 1000 := by omega
      have lower := (least (backingTarget quantity 0)).1 (by omega)
      have upper := least (quantity * 1000)
      simp only [whole, Nat.sub_zero] at lower upper
      have := upper.2 (by linarith)
      omega
  · intro v g last mine p places placed
    have overlap : overlapping k shares i = mine := mem_overlapping
    have may : MayPlace f shares k w i ↔ places := by
      unfold MayPlace
      simp only [sameRange_iff, overlap]
      rfl
    have here (h : places) := walkUnit_places (may.2 h)
    have written (h : places) (x : Walk) (hx : ∃ fresh enlarged, x = { walkPlaced f w i p with fresh := fresh, enlarged := enlarged })
        (is : v = x) : placed := by
      obtain ⟨_, _, rfl⟩ := hx
      exact ⟨by rw [is]; rfl, by rw [is]; rfl, by rw [is]; exact h.2.1, by rw [is]; exact used_walkPlaced f w i p⟩
    refine ⟨fun idle => walkUnit_idle fun h => idle (may.1 h), fun h bare full => ?_, fun h bare room => ?_,
      fun r rest h listed => ?_⟩
    · refine (here h).trans ?_
      rw [overlap, bare]
      exact if_pos full
    · have is : v = { walkPlaced f w i p with fresh := w.fresh ++ [(i, p)] } := by
        refine (here h).trans ?_
        rw [overlap, bare]
        exact if_neg (by omega)
      exact ⟨written h _ ⟨_, _, rfl⟩ is, by rw [is], by rw [is]; rfl⟩
    · have is : v = { walkPlaced f w i p with
          enlarged := w.enlarged ++ [{ target := r.num, unit := i, add := p }] } := by
        refine (here h).trans ?_
        rw [overlap, listed]
        rfl
      exact ⟨written h _ ⟨_, _, rfl⟩ is, by rw [is]; rfl, by rw [is]⟩
  · intro plan w
    obtain ⟨total, bound, offer, fresh, -⟩ := walk_keeps f f.shares
      { product := o.product, first := o.first, count := o.count, free := f.free, entry := none }
      (backingTarget o.quantity f.holdback)
    have enlarged := offer rfl
    rw [enlarged] at total
    have placed : plan.placed = (plan.fresh.map Prod.snd).sum := by
      simp only [List.map_nil, List.sum_nil, Nat.add_zero] at total
      exact Nat.sub_eq_of_eq_add (total.symm.trans (Nat.add_comm ..))
    have le : plan.placed ≤ plan.target := Nat.sub_le ..
    refine ⟨rfl, rfl, rfl, rfl, rfl, enlarged, placed.symm, le, bound, fresh, fun j booked planned frozen outcome => ?_⟩
    refine booked_le holdback (by rw [planned]; rfl) (by rw [planned]; exact le) ?_ frozen outcome
    rw [planned, placed]
    exact sum_tens fun x hx => by
      obtain ⟨q, hq, rfl⟩ := List.mem_map.1 hx
      exact (fresh q hq).2.1
  · intro held short u burdened least
    have burden (d : Nat) : overWith f shares n r d = true ↔ burdened d := by
      rw [overWith_iff]
      exact exists_congr fun t => and_congr_right fun _ => and_congr_right fun _ => and_congr_right fun _ =>
        overCommitted_iff ..
    obtain ⟨le, suffices_, needed⟩ := reliefOf_spec f shares n r
    refine ⟨le, fun part => ?_, fun d lt ten => (burden d).1 (needed d lt ten)⟩
    obtain ⟨ten, clear⟩ := suffices_ part
    exact ⟨ten, fun h => Bool.false_ne_true (clear.symm.trans ((burden _).2 h))⟩
  · intro p n reaching contributes
    refine ⟨fun past => planReplan_past past number, fun ahead => ?_⟩
    obtain ⟨works, removed, cut, reduced, continuations, target⟩ := planReplan_lists ahead number
    have free : p.continuations.length ≤ f.free := by
      rw [continuations]
      exact continuations_mended_le (Nat.zero_le _) _
    refine ⟨works, fun k hk => mem_cut (cut ▸ hk), fun k hk => mem_removed (removed ▸ hk),
      fun q hq => mem_reduced (reduced ▸ hq), fun c hc => ?_, fun r hr lost => ?_, fun once => ?_, ?_⟩
    · rw [cut]
      exact mem_continuations (continuations ▸ hc)
    · obtain ⟨fate, met⟩ := fate_of_record hr
      rw [cut, removed]
      exact given_up (off_of_lost met lost ▸ met)
    · intro kept
      have same : kept = powerKept (repairOf f number e) := by
        dsimp only [kept]
        rw [removed, cut, reduced, continuations] <;> rfl
      rw [same, target, cut, removed]
      refine ⟨?_, fun units r hr on => relief_met once units hr on⟩
      have balance := replan_balance (number := number) (e := e) once
      show (repairOf f number e).removedPower + e.uncovered +
        ((reachingRecords f number e).map (powerKept (repairOf f number e))).sum = _
      rw [← show powerSum (reachingRecords f number e) = powerSum reaching from rfl, ← balance]
      omega
    · by_cases none : p.target = 0
      · obtain ⟨fresh, enlarged, last, placed⟩ := planReplan_idle ahead number none
        rw [show p.fresh = [] from fresh, show p.enlarged = [] from enlarged, show p.placed = 0 from placed]
        exact ⟨Nat.zero_le _, rfl, free, fun q hq => absurd hq List.not_mem_nil, fun g hg => absurd hg List.not_mem_nil,
          fun _ => ⟨rfl, rfl, last⟩, fun some => absurd none some⟩
      · obtain ⟨fresh, enlarged, placed, stopped, last⟩ := planReplan_walk ahead number none
        obtain ⟨total, bound, -, news, raised⟩ :=
          walk_keeps f (repairOf f number e).shares (replanTask f number e) (planReplan f number e).target
        rw [← fresh] at total bound news
        rw [← enlarged] at total raised
        refine ⟨by rw [show p.placed = _ from placed]; exact Nat.sub_le .., ?_, ?_, news, raised,
          fun idle => absurd idle none, fun _ once pool => ?_⟩
        · rw [show p.placed = _ from placed]
          exact Nat.sub_eq_of_eq_add (total.symm.trans (by rw [Nat.add_assoc, Nat.add_comm]))
        · have room : p.fresh.length ≤ f.free - (repairOf f number e).continuations.length := bound
          rw [← continuations] at room
          exact (Nat.add_le_add_left room _).trans_eq (Nat.add_sub_cancel' free)
        · intro changed continued
          have apart : ((workOrder f (reachingRecords f number e)).map ShareRec.num).Nodup :=
            ((workOrder_perm ..).map _).nodup_iff.2 (once.sublist (reachingRecords_sublist.map _))
          have copy := shares_mended (n := replanFirst f e) once pool (fun r hr =>
            reachingRecords_sublist.subset ((workOrder_perm ..).mem_iff.1 hr)) apart
          refine ⟨(repairOf f number e).shares, copy.trans (.of_eq ?_), ?_⟩
          · have same : changed = changedRecord f.slot (repairOf f number e) := by
              dsimp only [changed]
              rw [cut, reduced] <;> rfl
            rw [same]
            dsimp only [continued]
            rw [removed, continuations] <;> rfl
          · intro task w
            have walked : w = walk f (repairOf f number e).shares (replanTask f number e) p.target := by
              dsimp only [w, task]
              rw [continuations]
              rfl
            rw [walked]
            exact ⟨fresh, enlarged, placed, stopped, last⟩

end Sys2Proof.Machine

/-! PROOF. The two passes of a round: what each unit carries, what is orphaned, and where the orphan goes (R132 to
R137). -/

namespace Sys2Proof.Machine

/-! ### Scaled pairs (R134) -/

theorem pairSum_cons (q : Nat × Int) (ps : List (Nat × Int)) : pairSum (q :: ps) = q.2 + pairSum ps := by
  simp [pairSum]

/-- The positive powers scaled to truncate(c × T / D). -/
def scaledUp (T D : Int) (ps : List (Nat × Int)) : Int :=
  (ps.map fun q => if 0 < q.2 then Int.tdiv (q.2 * T) D else 0).sum

/-- The sum of the positive powers. -/
def upSum (ps : List (Nat × Int)) : Int := ((ps.map Prod.snd).map fun c => max 0 c).sum

/-- The magnitude of the sum of the negative powers. -/
def downSum (ps : List (Nat × Int)) : Int := ((ps.map Prod.snd).map fun c => max 0 (-c)).sum

theorem upSum_sub_downSum (ps : List (Nat × Int)) : upSum ps - downSum ps = pairSum ps := by
  induction ps with
  | nil => rfl
  | cons q ps ih =>
    simp only [upSum, downSum, pairSum, List.map_cons, List.sum_cons] at ih ⊢
    omega

theorem upSum_nonneg (ps : List (Nat × Int)) : 0 ≤ upSum ps :=
  List.sum_nonneg fun x hx => by
    obtain ⟨c, -, rfl⟩ := List.mem_map.1 hx
    exact le_max_left ..

theorem downSum_nonneg (ps : List (Nat × Int)) : 0 ≤ downSum ps :=
  List.sum_nonneg fun x hx => by
    obtain ⟨c, -, rfl⟩ := List.mem_map.1 hx
    exact le_max_left ..

/-- The pairs with their signs turned. -/
def turned (ps : List (Nat × Int)) : List (Nat × Int) := ps.map fun q => (q.1, -q.2)

theorem upSum_turned (ps : List (Nat × Int)) : upSum (turned ps) = downSum ps := by
  simp [upSum, downSum, turned, Function.comp_def]

/-- Truncation takes less than one watt from each scaled pair. -/
theorem scaledUp_bounds {T D : Int} (hT : 0 ≤ T) (hD : 0 < D) (ps : List (Nat × Int)) :
    D * scaledUp T D ps ≤ T * upSum ps ∧ T * upSum ps ≤ D * scaledUp T D ps + (D - 1) * ps.length := by
  induction ps with
  | nil => simp [scaledUp, upSum]
  | cons q ps ih =>
    obtain ⟨lower, upper⟩ := ih
    simp only [scaledUp, upSum, List.map_cons, List.sum_cons, List.length_cons] at lower upper ⊢
    by_cases positive : 0 < q.2
    · have quotient : Int.tdiv (q.2 * T) D = q.2 * T / D := Int.tdiv_eq_ediv_of_nonneg (by positivity)
      have division := Int.mul_ediv_add_emod (q.2 * T) D
      have small := Int.emod_lt_of_pos (q.2 * T) hD
      have nonneg := Int.emod_nonneg (q.2 * T) hD.ne'
      have whole : max 0 q.2 = q.2 := by omega
      rw [if_pos positive, quotient, whole]
      push_cast
      constructor <;> nlinarith
    · have none : max 0 q.2 = 0 := by omega
      rw [if_neg positive, none]
      push_cast
      constructor <;> nlinarith

/-- Scaled to τ of its own sum, a positive sum falls short of τ by fewer watts than there are pairs. -/
theorem scaledUp_own {T : Int} (hT : 0 ≤ T) {ps : List (Nat × Int)} (hD : 0 < upSum ps) :
    scaledUp T (upSum ps) ps ≤ T ∧ T < scaledUp T (upSum ps) ps + ps.length := by
  obtain ⟨lower, upper⟩ := scaledUp_bounds hT hD ps
  have some : 0 < (ps.length : Int) := by
    cases ps with
    | nil => simp [upSum] at hD
    | cons q ps => simp
  constructor
  · by_contra h
    push Not at h
    nlinarith
  · by_contra h
    push Not at h
    nlinarith

theorem pairSum_scaled_up (T D : Int) (ps : List (Nat × Int)) :
    pairSum (ps.map fun q => if 0 < q.2 then (q.1, Int.tdiv (q.2 * T) D) else q) = scaledUp T D ps - downSum ps := by
  induction ps with
  | nil => rfl
  | cons q ps ih =>
    simp only [scaledUp, downSum, List.map_cons, List.sum_cons, pairSum_cons] at ih ⊢
    rw [ih]
    split_ifs with positive
    · have : max 0 (-q.2) = 0 := by omega
      rw [this]
      ring
    · have : max 0 (-q.2) = -q.2 := by omega
      rw [this]
      ring

theorem pairSum_scaled_down (T D : Int) (ps : List (Nat × Int)) :
    pairSum (ps.map fun q => if q.2 < 0 then (q.1, Int.tdiv (q.2 * T) D) else q) =
      upSum ps - scaledUp T D (turned ps) := by
  induction ps with
  | nil => rfl
  | cons q ps ih =>
    simp only [scaledUp, upSum, turned, List.map_cons, List.sum_cons, pairSum_cons] at ih ⊢
    rw [ih]
    by_cases negative : q.2 < 0
    · have none : max 0 q.2 = 0 := by omega
      rw [if_pos negative, if_pos (by omega), none, Int.neg_mul, Int.neg_tdiv]
      ring
    · have whole : max 0 q.2 = q.2 := by omega
      rw [if_neg negative, if_neg (by omega), whole]
      ring

theorem pairSum_filter_ne_zero (ps : List (Nat × Int)) : pairSum (ps.filter fun q => q.2 ≠ 0) = pairSum ps := by
  induction ps with
  | nil => rfl
  | cons q ps ih =>
    by_cases none : q.2 = 0
    · rw [List.filter_cons_of_neg (by simp [none]), ih, pairSum_cons, none, zero_add]
    · rw [List.filter_cons_of_pos (by simp [none]), pairSum_cons, pairSum_cons, ih]

theorem pairSum_uncarried {ps qs : List (Nat × Int)} (h : ps.length = qs.length) :
    pairSum (uncarried ps qs) = pairSum ps - pairSum qs := by
  unfold uncarried
  induction ps generalizing qs with
  | nil =>
    obtain rfl : qs = [] := List.length_eq_zero_iff.1 h.symm
    rfl
  | cons p ps ih =>
    cases qs with
    | nil => cases h
    | cons q qs =>
      rw [List.zipWith_cons_cons, pairSum_cons, pairSum_cons, pairSum_cons, ih (Nat.succ.inj h)]
      ring

theorem pairSum_filter_pos (ps : List (Nat × Int)) : pairSum (ps.filter fun q => decide (0 < q.2)) = upSum ps := by
  induction ps with
  | nil => rfl
  | cons q ps ih =>
    simp only [upSum, List.map_cons, List.sum_cons] at ih ⊢
    by_cases positive : 0 < q.2
    · rw [List.filter_cons_of_pos (by simpa using positive), pairSum_cons, ih, max_eq_right positive.le]
    · rw [List.filter_cons_of_neg (by simpa using positive), ih, max_eq_left (not_lt.1 positive), zero_add]

theorem pairSum_filter_neg (ps : List (Nat × Int)) : -pairSum (ps.filter fun q => decide (q.2 < 0)) = downSum ps := by
  induction ps with
  | nil => rfl
  | cons q ps ih =>
    simp only [downSum, List.map_cons, List.sum_cons] at ih ⊢
    by_cases negative : q.2 < 0
    · rw [List.filter_cons_of_pos (by simpa using negative), pairSum_cons, ← ih, max_eq_right (by omega)]
      ring
    · rw [List.filter_cons_of_neg (by simpa using negative), ih, max_eq_left (by omega), zero_add]

/-! ### Pass 1 for one unit (R132 to R134) -/

theorem unitRecords_sorted (rs : List ShareRec) (i : Nat) :
    (unitRecords rs i).Pairwise fun a b => a.first < b.first ∨ (a.first = b.first ∧ a.num ≤ b.num) := by
  have order (a b : ShareRec) : unitOrder a b = true ↔ a.first < b.first ∨ (a.first = b.first ∧ a.num ≤ b.num) := by
    simp [unitOrder]
  exact (sortBy_sorted (fun a b => by simp only [order]; omega) (fun a b c => by simp only [order]; omega) _).imp
    fun h => (order _ _).1 h

theorem unitPairs_eq (s : State) (fraction : Product → Int) (i : Nat) : unitPairs s fraction i =
    (unitRecords s.shares i).filterMap fun r => match entryOf s r.entry with
      | none => none
      | some e =>
        if e.state = .active ∧ r.first ≤ s.time.slot ∧ s.time.slot ≤ r.last then
          some (r.entry, Int.tdiv (r.power * fraction e.product) 1000)
        else none := by
  unfold unitPairs
  refine List.filterMap_congr fun r _ => ?_
  cases entryOf s r.entry with
  | none => rfl
  | some e => simp only [covers, recordShare, Bool.and_eq_true, decide_eq_true_eq]

section

variable {s : State} {fraction : Product → Int} {i : Nat}

/-- The figures of a unit before its pairs are carried. -/
def unloaded (s : State) (i : Nat) : UnitShare :=
  { unit := i, feeder := (unitOf s i).feeder, live := contributing s i, upper := upperBound s i,
    lower := lowerBound s i, setpoint := 0, duty := [], orphan := [] }

theorem firstPass_idle (idle : contributing s i = false) :
    firstPass s fraction i = { unloaded s i with orphan := unitPairs s fraction i } := if_pos idle

variable (live : contributing s i = true)
include live

theorem firstPass_within (lower : lowerBound s i ≤ pairSum (unitPairs s fraction i))
    (upper : pairSum (unitPairs s fraction i) ≤ upperBound s i) : firstPass s fraction i = { unloaded s i with
      setpoint := pairSum (unitPairs s fraction i), duty := unitPairs s fraction i } :=
  (if_neg (by simp [live])).trans ((if_neg (not_lt.2 upper)).trans (if_neg (not_lt.2 lower)))

theorem firstPass_above (above : upperBound s i < pairSum (unitPairs s fraction i)) :
    let ps := unitPairs s fraction i
    let carried := ps.map fun q =>
      if 0 < q.2 then (q.1, Int.tdiv (q.2 * (upSum ps - (pairSum ps - upperBound s i))) (upSum ps)) else q
    firstPass s fraction i = { unloaded s i with
      setpoint := pairSum carried, duty := carried.filter (fun q => q.2 ≠ 0), orphan := uncarried ps carried } := by
  have is : firstPass s fraction i = _ := (if_neg (by simp [live])).trans (if_pos above)
  rw [is]
  dsimp only
  rw [pairSum_filter_pos]
  simp only [scalePairs, decide_eq_true_eq]
  rfl

theorem firstPass_below (within : pairSum (unitPairs s fraction i) ≤ upperBound s i)
    (below : pairSum (unitPairs s fraction i) < lowerBound s i) :
    let ps := unitPairs s fraction i
    let carried := ps.map fun q =>
      if q.2 < 0 then (q.1, Int.tdiv (q.2 * (downSum ps - (lowerBound s i - pairSum ps))) (downSum ps)) else q
    firstPass s fraction i = { unloaded s i with
      setpoint := pairSum carried, duty := carried.filter (fun q => q.2 ≠ 0), orphan := uncarried ps carried } := by
  have is : firstPass s fraction i = _ :=
    (if_neg (by simp [live])).trans ((if_neg (not_lt.2 within)).trans (if_pos below))
  rw [is]
  dsimp only
  rw [pairSum_filter_neg]
  simp only [scalePairs, decide_eq_true_eq]
  rfl

end

theorem upperBound_nonneg (s : State) (i : Nat) : 0 ≤ upperBound s i := by
  unfold upperBound
  split_ifs <;> simp

theorem lowerBound_nonpos (s : State) (i : Nat) : lowerBound s i ≤ 0 := by
  unfold lowerBound
  split_ifs <;> simp

/-- What is carried and what is orphaned make the raw demand (R134). -/
theorem firstPass_balance (s : State) (fraction : Product → Int) (i : Nat) :
    pairSum (firstPass s fraction i).duty + pairSum (firstPass s fraction i).orphan = pairSum (unitPairs s fraction i) := by
  cases live : contributing s i with
  | false =>
    rw [firstPass_idle live]
    simp [unloaded, pairSum]
  | true =>
    by_cases above : upperBound s i < pairSum (unitPairs s fraction i)
    · rw [firstPass_above live above]
      dsimp only
      rw [pairSum_filter_ne_zero, pairSum_uncarried (by simp)]
      ring
    · by_cases below : pairSum (unitPairs s fraction i) < lowerBound s i
      · rw [firstPass_below live (not_lt.1 above) below]
        dsimp only
        rw [pairSum_filter_ne_zero, pairSum_uncarried (by simp)]
        ring
      · rw [firstPass_within live (not_lt.1 below) (not_lt.1 above)]
        simp [unloaded, pairSum]

/-- A unit beyond a bound is taken to within fewer watts of it than it has pairs (R134). -/
theorem carried_above {ps : List (Nat × Int)} {upper : Int} (nonneg : 0 ≤ upper) (above : upper < pairSum ps) :
    let c := pairSum (ps.map fun q =>
      if 0 < q.2 then (q.1, Int.tdiv (q.2 * (upSum ps - (pairSum ps - upper))) (upSum ps)) else q)
    c ≤ upper ∧ upper < c + ps.length := by
  have split := upSum_sub_downSum ps
  have down := downSum_nonneg ps
  obtain ⟨le, lt⟩ := scaledUp_own (T := upSum ps - (pairSum ps - upper)) (by omega) (ps := ps) (by omega)
  intro c
  have sum : c = _ := pairSum_scaled_up ..
  omega

theorem carried_below {ps : List (Nat × Int)} {lower : Int} (nonpos : lower ≤ 0) (below : pairSum ps < lower) :
    let c := pairSum (ps.map fun q =>
      if q.2 < 0 then (q.1, Int.tdiv (q.2 * (downSum ps - (lower - pairSum ps))) (downSum ps)) else q)
    lower ≤ c ∧ c < lower + ps.length := by
  have split := upSum_sub_downSum ps
  have up := upSum_nonneg ps
  have turn := upSum_turned ps
  obtain ⟨le, lt⟩ := scaledUp_own (T := downSum ps - (lower - pairSum ps)) (by omega) (ps := turned ps) (by omega)
  rw [turn] at le lt
  intro c
  have sum : c = _ := pairSum_scaled_down ..
  have length : (turned ps).length = ps.length := List.length_map ..
  omega

end Sys2Proof.Machine

/-! PROOF. Pass 2 of a round: the orphan placed on live units with room, shared out among the orphaned entries (R135 to
R137). -/

namespace Sys2Proof.Machine

/-! ### The added powers (R135, R136) -/

/-- The power a unit is given toward the orphan. -/
def givenTo (orphan : Int) (us : List UnitShare) (u : UnitShare) : Int :=
  addedPower orphan (us.map (spareOf orphan)).sum (spareOf orphan u)

theorem spareOf_nonneg {orphan : Int} (h : 0 < orphan) (u : UnitShare) : 0 ≤ spareOf orphan u := by
  unfold spareOf
  split_ifs
  · exact le_rfl
  · exact le_max_left ..

theorem spareOf_nonpos {orphan : Int} (h : orphan < 0) (u : UnitShare) : spareOf orphan u ≤ 0 := by
  unfold spareOf
  rw [if_neg (not_lt.2 h.le), if_pos h]
  split_ifs
  · exact le_rfl
  · exact min_le_left ..

theorem sum_spare_nonneg {orphan : Int} (h : 0 < orphan) (us : List UnitShare) : 0 ≤ (us.map (spareOf orphan)).sum :=
  List.sum_nonneg fun x hx => by
    obtain ⟨u, -, rfl⟩ := List.mem_map.1 hx
    exact spareOf_nonneg h u

theorem sum_spare_nonpos {orphan : Int} (h : orphan < 0) (us : List UnitShare) : (us.map (spareOf orphan)).sum ≤ 0 := by
  induction us with
  | nil => exact le_rfl
  | cons u us ih =>
    have := spareOf_nonpos h u
    rw [List.map_cons, List.sum_cons]
    omega

/-- A power given is the spare, or its part of a greater total of spares. -/
theorem addedPower_up {orphan total spare : Int} (h : 0 < orphan) : addedPower orphan total spare =
    if total.natAbs ≤ orphan.natAbs then spare else Int.fdiv (orphan * spare) total := by
  unfold addedPower
  rw [if_pos h]

theorem addedPower_down {orphan total spare : Int} (h : orphan < 0) (down : total ≤ 0) (room : spare ≤ 0) :
    addedPower orphan total spare =
      if total.natAbs ≤ orphan.natAbs then spare else -Int.fdiv (-orphan * -spare) (-total) := by
  unfold addedPower
  rw [if_neg (not_lt.2 h.le), Int.ofNat_natAbs_of_nonpos h.le, Int.ofNat_natAbs_of_nonpos room,
    Int.ofNat_natAbs_of_nonpos down]

/-- A part in proportion of a positive orphan is between nothing and the spare. -/
theorem part_bounds {orphan total spare : Int} (positive : 0 < orphan) (room : 0 ≤ spare) (more : orphan < total) :
    0 ≤ Int.fdiv (orphan * spare) total ∧ Int.fdiv (orphan * spare) total ≤ spare ∧
      total * Int.fdiv (orphan * spare) total ≤ orphan * spare := by
  have whole : 0 < total := by omega
  rw [Int.fdiv_eq_ediv_of_nonneg _ whole.le]
  have division := Int.mul_ediv_add_emod (orphan * spare) total
  have nonneg := Int.emod_nonneg (orphan * spare) whole.ne'
  refine ⟨Int.ediv_nonneg (by positivity) whole.le, ?_, by omega⟩
  exact Int.ediv_le_of_le_mul whole (by nlinarith)

/-- What a power given upward keeps to: the unit's own spare. -/
theorem givenTo_up {orphan : Int} (h : 0 < orphan) (us : List UnitShare) (u : UnitShare) :
    0 ≤ givenTo orphan us u ∧ givenTo orphan us u ≤ spareOf orphan u := by
  have room := spareOf_nonneg h u
  unfold givenTo
  rw [addedPower_up h]
  split_ifs with enough
  · exact ⟨room, le_rfl⟩
  · have := sum_spare_nonneg h us
    obtain ⟨nonneg, le, -⟩ := part_bounds h room (total := (us.map (spareOf orphan)).sum) (by omega)
    exact ⟨nonneg, le⟩

theorem givenTo_down {orphan : Int} (h : orphan < 0) (us : List UnitShare) (u : UnitShare) :
    givenTo orphan us u ≤ 0 ∧ spareOf orphan u ≤ givenTo orphan us u := by
  have room := spareOf_nonpos h u
  have total := sum_spare_nonpos h us
  unfold givenTo
  rw [addedPower_down h total room]
  split_ifs with enough
  · exact ⟨room, le_rfl⟩
  · obtain ⟨nonneg, le, -⟩ := part_bounds (orphan := -orphan) (spare := -spareOf orphan u)
      (total := -(us.map (spareOf orphan)).sum) (by omega) (by omega) (by omega)
    omega

/-- All that is given is no more than the orphan (R135, R136). -/
theorem sum_given_up {orphan : Int} (h : 0 < orphan) (us : List UnitShare) :
    0 ≤ (us.map (givenTo orphan us)).sum ∧ (us.map (givenTo orphan us)).sum ≤ orphan := by
  have total := sum_spare_nonneg h us
  refine ⟨List.sum_nonneg fun x hx => ?_, ?_⟩
  · obtain ⟨u, -, rfl⟩ := List.mem_map.1 hx
    exact (givenTo_up h us u).1
  · by_cases enough : (us.map (spareOf orphan)).sum.natAbs ≤ orphan.natAbs
    · have whole : us.map (givenTo orphan us) = us.map (spareOf orphan) :=
        List.map_congr_left fun u _ => (addedPower_up h).trans (if_pos enough)
      rw [whole]
      omega
    · set T := (us.map (spareOf orphan)).sum with hT
      have each (vs : List UnitShare) : T * (vs.map (givenTo orphan us)).sum ≤ orphan * (vs.map (spareOf orphan)).sum := by
        induction vs with
        | nil => simp
        | cons u vs ih =>
          have part : givenTo orphan us u = Int.fdiv (orphan * spareOf orphan u) T := (addedPower_up h).trans (if_neg enough)
          have bound := (part_bounds h (spareOf_nonneg h u) (total := T) (by omega)).2.2
          rw [List.map_cons, List.map_cons, List.sum_cons, List.sum_cons, part, mul_add, mul_add]
          omega
      have all := each us
      rw [← hT] at all
      exact le_of_mul_le_mul_left (all.trans_eq (mul_comm ..)) (by omega)

theorem sum_given_down {orphan : Int} (h : orphan < 0) (us : List UnitShare) :
    (us.map (givenTo orphan us)).sum ≤ 0 ∧ orphan ≤ (us.map (givenTo orphan us)).sum := by
  have total := sum_spare_nonpos h us
  refine ⟨?_, ?_⟩
  · have each (vs : List UnitShare) : (vs.map (givenTo orphan us)).sum ≤ 0 := by
      induction vs with
      | nil => exact le_rfl
      | cons u vs ih =>
        have := (givenTo_down h us u).1
        rw [List.map_cons, List.sum_cons]
        omega
    exact each us
  · by_cases enough : (us.map (spareOf orphan)).sum.natAbs ≤ orphan.natAbs
    · have whole : us.map (givenTo orphan us) = us.map (spareOf orphan) :=
        List.map_congr_left fun u _ => (addedPower_down h total (spareOf_nonpos h u)).trans (if_pos enough)
      rw [whole]
      omega
    · set T := (us.map (spareOf orphan)).sum with hT
      have each (vs : List UnitShare) :
          -T * -(vs.map (givenTo orphan us)).sum ≤ -orphan * -(vs.map (spareOf orphan)).sum := by
        induction vs with
        | nil => simp
        | cons u vs ih =>
          have part : givenTo orphan us u = -Int.fdiv (-orphan * -spareOf orphan u) (-T) :=
            (addedPower_down h total (spareOf_nonpos h u)).trans (if_neg enough)
          have room := spareOf_nonpos h u
          have bound := (part_bounds (orphan := -orphan) (spare := -spareOf orphan u) (total := -T)
            (by omega) (by omega) (by omega)).2.2
          rw [List.map_cons, List.map_cons, List.sum_cons, List.sum_cons, part, neg_add, neg_add, mul_add, mul_add,
            neg_neg]
          exact add_le_add bound ih
      have all := each us
      rw [← hT] at all
      have := le_of_mul_le_mul_left (all.trans_eq (mul_comm ..)) (by omega)
      omega

/-! ### The shares of the added power (R137) -/

/-- Parts of distinct entries raise the pairs that stand and append the others. -/
theorem foldl_raiseDuty {ps : List (Nat × Int)} (once : (ps.map Prod.fst).Nodup) (duty : List (Nat × Int)) :
    ps.foldl raiseDuty duty = (duty.map fun q => (q.1, q.2 + tableGet 0 ps q.1)) ++
      ps.filter fun p => p.2 ≠ 0 ∧ p.1 ∉ duty.map Prod.fst := by
  induction ps generalizing duty with
  | nil => simp [tableGet, tableFind]
  | cons p ps ih =>
    rw [List.map_cons, List.nodup_cons] at once
    obtain ⟨new, once⟩ := once
    have absent : tableGet 0 ps p.1 = 0 := by
      unfold tableGet
      cases found : tableFind ps p.1 with
      | none => rfl
      | some x => exact absurd (List.mem_map_of_mem (f := Prod.fst) (tableFind_mem found)) new
    have head (j : Nat) : tableGet 0 (p :: ps) j = if p.1 = j then p.2 else tableGet 0 ps j := by
      show (if p.1 = j then some p.2 else tableFind ps j).getD 0 = _
      split_ifs <;> rfl
    rw [List.foldl_cons, ih once]
    unfold raiseDuty
    by_cases zero : p.2 = 0
    · rw [if_pos zero, List.filter_cons_of_neg (by simp [zero])]
      refine congrArg (· ++ _) (List.map_congr_left fun q _ => ?_)
      rw [head]
      split_ifs with here
      · rw [← here, absent, zero]
      · rfl
    · rw [if_neg zero]
      by_cases held : duty.any (fun q => q.1 == p.1) = true
      · have listed : p.1 ∈ duty.map Prod.fst := by
          obtain ⟨q, hq, e⟩ := List.any_eq_true.1 held
          exact List.mem_map.2 ⟨q, hq, by simpa using e⟩
        have keys : (duty.map fun q => if q.1 = p.1 then (q.1, q.2 + p.2) else q).map Prod.fst = duty.map Prod.fst := by
          rw [List.map_map]
          exact List.map_congr_left fun q _ => by dsimp only [Function.comp]; split_ifs <;> rfl
        rw [if_pos held, keys, List.filter_cons_of_neg (by simp [listed]), List.map_map]
        refine congrArg (· ++ _) (List.map_congr_left fun q _ => ?_)
        rw [head]
        dsimp only [Function.comp]
        by_cases here : q.1 = p.1
        · rw [if_pos here, if_pos here.symm]
          dsimp only
          rw [here, absent, add_zero]
        · rw [if_neg here, if_neg fun e => here e.symm]
      · have unlisted : p.1 ∉ duty.map Prod.fst := fun h => held (by
          obtain ⟨q, hq, e⟩ := List.mem_map.1 h
          exact List.any_eq_true.2 ⟨q, hq, by simp [e]⟩)
        rw [if_neg held, List.filter_cons_of_pos (by simp [zero, unlisted]), List.map_append, List.append_assoc]
        have others : (ps.filter fun x => x.2 ≠ 0 ∧ x.1 ∉ (duty ++ [p]).map Prod.fst) =
            ps.filter fun x => x.2 ≠ 0 ∧ x.1 ∉ duty.map Prod.fst := by
          refine List.filter_congr fun x hx => decide_eq_decide.2 (and_congr_right fun _ => not_congr ?_)
          have apart : x.1 ≠ p.1 := fun e => new (e ▸ List.mem_map_of_mem hx)
          simp [apart]
        rw [others]
        refine congrArg₂ (· ++ ·) (List.map_congr_left fun q hq => ?_) ?_
        · rw [head, if_neg fun e => unlisted (List.mem_map.2 ⟨q, hq, e.symm⟩)]
        · simp [absent]

theorem tableGet_parts (g : Int → Int) (zero : g 0 = 0) (ps : List (Nat × Int)) (j : Nat) :
    tableGet 0 (ps.map fun p => (p.1, g p.2)) j = g (tableGet 0 ps j) := by
  have found := tableFind_map (fun (_ : Nat) x => g x) ps j
  unfold tableGet
  rw [found]
  cases tableFind ps j with
  | none => exact zero.symm
  | some x => rfl

theorem shareOut_eq {added orphan : Int} {orphans : List (Nat × Int)} (once : (orphans.map Prod.fst).Nodup)
    (duty : List (Nat × Int)) : shareOut added orphan orphans duty =
      (duty.map fun q => (q.1, q.2 + Int.tdiv (added * tableGet 0 orphans q.1) orphan)) ++
        ((orphans.filter fun p => Int.tdiv (added * p.2) orphan ≠ 0 ∧ p.1 ∉ duty.map Prod.fst).map fun p =>
          (p.1, Int.tdiv (added * p.2) orphan)) := by
  have keys : ((orphans.map fun p => (p.1, Int.tdiv (added * p.2) orphan)).map Prod.fst).Nodup := by
    rw [List.map_map]
    exact once
  have part (j : Nat) := tableGet_parts (fun o => Int.tdiv (added * o) orphan) (by simp) orphans j
  rw [shareOut, foldl_raiseDuty keys, List.filter_map]
  simp only [part]
  rfl

/-- Pass 2 unit by unit. -/
theorem secondPass_eq {orphan : Int} (some : orphan ≠ 0) (orphans : List (Nat × Int)) (us : List UnitShare) :
    secondPass orphans orphan us = us.map fun u =>
      { u with setpoint := u.setpoint + givenTo orphan us u, duty := shareOut (givenTo orphan us u) orphan orphans u.duty } :=
  List.map_congr_left fun _ _ => if_neg some

theorem secondPass_nothing (orphans : List (Nat × Int)) (us : List UnitShare) : secondPass orphans 0 us = us :=
  (List.map_congr_left fun _ _ => if_pos rfl).trans (List.map_id _)

theorem shortfallOf_eq {orphan : Int} (some : orphan ≠ 0) (us : List UnitShare) :
    shortfallOf orphan us = orphan.natAbs - ((us.map (givenTo orphan us)).sum).natAbs := if_neg some

/-- Settles O39: pass 1 by its four cases and the sums of scaled pairs, pass 2 by what each unit is given. -/
theorem theTwoPassesHoldToTheBounds : Obligations.TheTwoPassesHoldToTheBounds := by
  refine ⟨fun s fraction i => ?_, fun orphan orphans us => ?_⟩
  · intro u pairs raw upper lower carriedBy
    have upperLive (live : contributing s i = true) : upperBound s i = upper := by simp [upperBound, live, upper]
    have lowerLive (live : contributing s i = true) : lowerBound s i = lower := by simp [lowerBound, live, lower]
    have frame : u.unit = i ∧ u.feeder = (unitOf s i).feeder ∧ u.live = contributing s i ∧
        u.upper = upperBound s i ∧ u.lower = lowerBound s i := by
      have split : ∃ setpoint duty orphan,
          u = { unloaded s i with setpoint := setpoint, duty := duty, orphan := orphan } := by
        cases live : contributing s i with
        | false => exact ⟨_, _, _, firstPass_idle live⟩
        | true =>
          by_cases above : upperBound s i < raw
          · exact ⟨_, _, _, firstPass_above live above⟩
          · by_cases below : raw < lowerBound s i
            · exact ⟨_, _, _, firstPass_below live (not_lt.1 above) below⟩
            · exact ⟨_, _, _, firstPass_within live (not_lt.1 below) (not_lt.1 above)⟩
      obtain ⟨_, _, _, is⟩ := split
      rw [is]
      exact ⟨rfl, rfl, rfl, rfl, rfl⟩
    obtain ⟨unit, feeder, alive, top, bottom⟩ := frame
    refine ⟨sortBy_perm _, unitRecords_sorted .., unitPairs_eq .., ⟨unit, feeder, alive, ?_, ?_⟩, fun idle => ?_,
      fun live low high => ?_, fun live above => ?_, fun live below => ?_, firstPass_balance ..⟩
    · rw [top]
      split_ifs with live
      · exact upperLive live
      · simp [upperBound, live]
    · rw [bottom]
      split_ifs with live
      · exact lowerLive live
      · simp [lowerBound, live]
    · have is : u = _ := firstPass_idle idle
      rw [is]
      exact ⟨rfl, rfl, rfl⟩
    · have is : u = _ := firstPass_within live (by rw [lowerLive live]; exact low) (by rw [upperLive live]; exact high)
      rw [is]
      exact ⟨rfl, rfl, rfl⟩
    · rw [← upperLive live] at above ⊢
      have is : u = _ := firstPass_above live above
      obtain ⟨le, lt⟩ := carried_above (upperBound_nonneg s i) above
      intro total
      dsimp only [carriedBy]
      rw [is]
      exact ⟨⟨rfl, rfl, rfl⟩, le, lt, pairSum_filter_ne_zero _⟩
    · have within : raw ≤ upperBound s i := by
        have := lowerBound_nonpos s i
        have := upperBound_nonneg s i
        rw [← lowerLive live] at below
        omega
      rw [← lowerLive live] at below ⊢
      have is : u = _ := firstPass_below live within below
      obtain ⟨le, lt⟩ := carried_below (lowerBound_nonpos s i) below
      intro total
      dsimp only [carriedBy]
      rw [is]
      exact ⟨⟨rfl, rfl, rfl⟩, le, lt, pairSum_filter_ne_zero _⟩
  · intro vs spare total power added
    by_cases zero : orphan = 0
    · subst zero
      have same : vs = us := secondPass_nothing orphans us
      have short : shortfallOf 0 us = 0 := if_pos rfl
      have nothing (u : UnitShare) : power u = 0 := if_pos rfl
      refine ⟨by rw [same], fun k hu hv => ?_, fun _ => ⟨same, short⟩, fun h => absurd h (lt_irrefl 0),
        fun h => absurd h (lt_irrefl 0), short.ge⟩
      have at_ : vs[k] = us[k] := by simp only [same]
      rw [at_, nothing]
      exact ⟨rfl, (add_zero _).symm, fun _ => rfl, fun h => absurd h (lt_irrefl 0), fun h => absurd h (lt_irrefl 0),
        fun h => absurd rfl h⟩
    · have ofSpare (u : UnitShare) : spare u = spareOf orphan u := by
        dsimp only [spare]
        unfold spareOf
        rcases lt_trichotomy orphan 0 with neg | none | pos
        · rw [if_neg (not_lt.2 neg.le), if_neg (not_lt.2 neg.le), if_pos neg]
        · exact absurd none zero
        · rw [if_pos pos, if_pos pos]
      have ofTotal : total = (us.map (spareOf orphan)).sum :=
        congrArg List.sum (List.map_congr_left fun u _ => ofSpare u)
      have ofPower (u : UnitShare) : power u = givenTo orphan us u := by
        refine (if_neg zero).trans ?_
        unfold givenTo
        rw [ofTotal, ofSpare]
        rcases lt_trichotomy orphan 0 with neg | none | pos
        · rw [addedPower_down neg (sum_spare_nonpos neg us) (spareOf_nonpos neg u), if_neg (not_lt.2 neg.le)]
        · exact absurd none zero
        · rw [addedPower_up pos, if_pos pos]
      have is : vs = _ := secondPass_eq zero orphans us
      have sum : added = (us.map (givenTo orphan us)).sum := by
        have setpoints (us' : List UnitShare) : ((us'.map fun u => { u with
            setpoint := u.setpoint + givenTo orphan us u,
            duty := shareOut (givenTo orphan us u) orphan orphans u.duty }).map UnitShare.setpoint).sum =
            (us'.map UnitShare.setpoint).sum + (us'.map (givenTo orphan us)).sum := by
          induction us' with
          | nil => rfl
          | cons u us' ih =>
            simp only [List.map_cons, List.sum_cons] at ih ⊢
            rw [ih]
            ring
        dsimp only [added]
        rw [is, setpoints us]
        ring
      have short := shortfallOf_eq zero us
      refine ⟨by rw [is, List.length_map], fun k hu hv => ?_, fun h => absurd h zero, fun pos => ?_, fun neg => ?_, ?_⟩
      · have at_ : vs[k] = { us[k] with
            setpoint := us[k].setpoint + givenTo orphan us us[k]
            duty := shareOut (givenTo orphan us us[k]) orphan orphans us[k].duty } := by simp only [is, List.getElem_map]
        have spareIs := ofSpare us[k]
        rw [at_, ofPower]
        refine ⟨rfl, rfl, fun idle => ?_, fun pos => ?_, fun neg => ?_, fun _ rising => ?_⟩
        · have none : spareOf orphan us[k] = 0 := if_pos idle
          rcases lt_trichotomy orphan 0 with neg | zero' | pos
          · have := givenTo_down neg us us[k]
            show _ + _ = _
            omega
          · exact absurd zero' zero
          · have := givenTo_up pos us us[k]
            show _ + _ = _
            omega
        · obtain ⟨nonneg, le⟩ := givenTo_up pos us us[k]
          have room : spareOf orphan us[k] ≤ max 0 (us[k].upper - us[k].setpoint) := by
            unfold spareOf
            rw [if_pos pos]
            split_ifs
            · exact le_max_left ..
            · exact le_rfl
          exact ⟨by show _ ≤ _ + _; omega, by show _ + _ ≤ _; omega⟩
        · obtain ⟨nonpos, le⟩ := givenTo_down neg us us[k]
          have room : min 0 (us[k].lower - us[k].setpoint) ≤ spareOf orphan us[k] := by
            unfold spareOf
            rw [if_neg (not_lt.2 neg.le), if_pos neg]
            split_ifs
            · exact min_le_left ..
            · exact le_rfl
          exact ⟨by show _ + _ ≤ _; omega, by show _ ≤ _ + _; omega⟩
        · exact shareOut_eq (rising.imp fun h => Nat.ne_of_lt h) _
      · obtain ⟨nonneg, le⟩ := sum_given_up pos us
        rw [sum, short]
        omega
      · obtain ⟨nonpos, le⟩ := sum_given_down neg us
        rw [sum, short]
        omega
      · rw [short]
        rcases lt_trichotomy orphan 0 with neg | none | pos
        · have := sum_given_down neg us
          omega
        · exact absurd none zero
        · have := sum_given_up pos us
          omega

end Sys2Proof.Machine

/-! PROOF. The round figures: the feeder clamp and the quantising of the setpoints, the orphan parts, and what each
method of a round sends (R131, R138 to R141). -/

namespace Sys2Proof.Machine

/-! ### The feeder clamp (R138) -/

/-- A power of a group, scaled down from the group's sum to its limit, rounding toward zero, when the sum is above it. -/
def heldTo (limit sum x : Int) : Int := if limit < sum then Int.fdiv (x * limit) sum else x

section
variable {limit sum : Int} (nonneg : 0 ≤ limit)
include nonneg

theorem scaled_bounds (more : limit < sum) {x : Int} (hx : 0 ≤ x) :
    0 ≤ Int.fdiv (x * limit) sum ∧ Int.fdiv (x * limit) sum ≤ x ∧ sum * Int.fdiv (x * limit) sum ≤ limit * x := by
  have whole : 0 < sum := by omega
  rw [Int.fdiv_eq_ediv_of_nonneg _ whole.le]
  have division := Int.mul_ediv_add_emod (x * limit) sum
  have remainder := Int.emod_nonneg (x * limit) whole.ne'
  refine ⟨Int.ediv_nonneg (by positivity) whole.le, Int.ediv_le_of_le_mul whole (by nlinarith), ?_⟩
  rw [mul_comm limit]
  omega

theorem heldTo_bounds {x : Int} (hx : 0 ≤ x) : 0 ≤ heldTo limit sum x ∧ heldTo limit sum x ≤ x := by
  unfold heldTo
  split_ifs with more
  · exact ⟨(scaled_bounds nonneg more hx).1, (scaled_bounds nonneg more hx).2.1⟩
  · exact ⟨hx, le_rfl⟩

/-- Powers held to a limit sum to no more than the limit. -/
theorem sum_heldTo_le {xs : List Int} (each : ∀ x ∈ xs, 0 ≤ x) (total : xs.sum = sum) :
    (xs.map (heldTo limit sum)).sum ≤ limit := by
  by_cases more : limit < sum
  · have scaled (ys : List Int) (part : ∀ y ∈ ys, 0 ≤ y) : sum * (ys.map (heldTo limit sum)).sum ≤ limit * ys.sum := by
      induction ys with
      | nil => simp
      | cons y ys ih =>
        obtain ⟨hy, rest⟩ := List.forall_mem_cons.1 part
        have own : heldTo limit sum y = Int.fdiv (y * limit) sum := if_pos more
        have bound := (scaled_bounds nonneg more hy).2.2
        rw [List.map_cons, List.sum_cons, List.sum_cons, own, mul_add, mul_add]
        exact add_le_add bound (ih rest)
    have all := scaled xs each
    rw [total, mul_comm limit] at all
    exact le_of_mul_le_mul_left all (by omega)
  · have kept : xs.map (heldTo limit sum) = xs := by
      rw [show heldTo limit sum = id from funext fun x => if_neg more, List.map_id]
    rw [kept, total]
    omega

/-- Powers of a group no greater than its parts held to the limit sum to no more than the limit. -/
theorem sum_group_le {group : List UnitShare} {part sent : UnitShare → Int} (parts : ∀ u, 0 ≤ part u)
    (each : ∀ u ∈ group, sent u ≤ heldTo limit (group.map part).sum (part u)) : (group.map sent).sum ≤ limit := by
  refine (List.sum_le_sum each).trans ?_
  have held := sum_heldTo_le nonneg (xs := group.map part) (fun x hx => by
    obtain ⟨u, -, rfl⟩ := List.mem_map.1 hx
    exact parts u) rfl
  rwa [List.map_map] at held

end

section
variable (s : State) (us : List UnitShare) (u : UnitShare)

theorem clampUnit_eq :
    let group := us.filter fun x => x.feeder == u.feeder
    let ex : Int := (feederOf s u.feeder).exportKw * 1000
    let im : Int := (feederOf s u.feeder).importKw * 1000
    clampUnit s us u = if 0 < u.setpoint ∧ ex < positivePower group then scaledUnit ex (positivePower group) u
      else if u.setpoint < 0 ∧ im < negativePower group then scaledUnit im (negativePower group) u
      else u := by
  intro group ex im
  by_cases up : 0 < u.setpoint ∧ ex < positivePower group
  · rw [if_pos up, scaledUnit, if_pos up.1]
    exact if_pos up
  · rw [if_neg up]
    refine (if_neg up).trans ?_
    by_cases down : u.setpoint < 0 ∧ im < negativePower group
    · rw [if_pos down, scaledUnit, if_neg (not_lt.2 down.1.le)]
      exact if_pos down
    · rw [if_neg down]
      exact if_neg down

/-- The setpoint of a unit after the clamp of its group. -/
theorem clampUnit_setpoint : (clampUnit s us u).setpoint =
    if 0 < u.setpoint then heldTo ((feederOf s u.feeder).exportKw * 1000) (groupExport us u.feeder) u.setpoint
    else if u.setpoint < 0 then
      -heldTo ((feederOf s u.feeder).importKw * 1000) (groupImport us u.feeder) (-u.setpoint)
    else 0 := by
  unfold clampUnit heldTo
  dsimp only
  by_cases up : 0 < u.setpoint
  · rw [if_pos up]
    by_cases more : ((feederOf s u.feeder).exportKw : Int) * 1000 < groupExport us u.feeder
    · rw [if_pos ⟨up, more⟩, if_pos more]
    · rw [if_neg fun h => more h.2, if_neg fun h => absurd h.1 (by omega), if_neg more]
  · rw [if_neg fun h => up h.1, if_neg up]
    by_cases down : u.setpoint < 0
    · rw [if_pos down]
      by_cases more : ((feederOf s u.feeder).importKw : Int) * 1000 < groupImport us u.feeder
      · rw [if_pos ⟨down, more⟩, if_pos more]
      · rw [if_neg fun h => more h.2, if_neg more, neg_neg]
    · rw [if_neg fun h => down h.1, if_neg down]
      omega

/-- The clamp and the quantising of one unit. -/
def sentAs : UnitShare := quantise (clampUnit s us u)

@[simp] theorem sentAs_unit : (sentAs s us u).unit = u.unit := by
  unfold sentAs quantise clampUnit
  dsimp only
  split_ifs <;> rfl

theorem sentAs_setpoint : (sentAs s us u).setpoint = Int.tdiv (clampUnit s us u).setpoint 10 * 10 := rfl

theorem sentAs_tens : (sentAs s us u).setpoint % 10 = 0 := Int.mul_emod_left ..

/-- Truncated toward zero, a power is no greater in magnitude and of no other sign. -/
theorem truncated_bounds (x : Int) :
    (0 ≤ x → 0 ≤ Int.tdiv x 10 * 10 ∧ Int.tdiv x 10 * 10 ≤ x) ∧
      (x ≤ 0 → Int.tdiv x 10 * 10 ≤ 0 ∧ x ≤ Int.tdiv x 10 * 10) := by
  have up {y : Int} (h : 0 ≤ y) : 0 ≤ Int.tdiv y 10 * 10 ∧ Int.tdiv y 10 * 10 ≤ y := by
    rw [Int.tdiv_eq_ediv_of_nonneg h]
    omega
  refine ⟨up, fun h => ?_⟩
  have opposite := up (y := -x) (by omega)
  rw [Int.neg_tdiv] at opposite
  omega

/-- What is sent to a unit that exports is within what its group's limit leaves of its setpoint. -/
theorem sentAs_up (h : 0 ≤ u.setpoint) : 0 ≤ (sentAs s us u).setpoint ∧ (sentAs s us u).setpoint ≤ u.setpoint ∧
    (sentAs s us u).setpoint ≤
      heldTo ((feederOf s u.feeder).exportKw * 1000) (groupExport us u.feeder) (max 0 u.setpoint) := by
  rw [sentAs_setpoint, max_eq_right h]
  have bounds := heldTo_bounds (limit := (feederOf s u.feeder).exportKw * 1000) (sum := groupExport us u.feeder)
    (by positivity) h
  have clamped : (clampUnit s us u).setpoint =
      heldTo ((feederOf s u.feeder).exportKw * 1000) (groupExport us u.feeder) u.setpoint := by
    rw [clampUnit_setpoint]
    split_ifs <;> omega
  have truncated := (truncated_bounds (clampUnit s us u).setpoint).1 (by omega)
  omega

/-- What is sent to a unit that imports is within what its group's limit leaves of its setpoint. -/
theorem sentAs_down (h : u.setpoint ≤ 0) : (sentAs s us u).setpoint ≤ 0 ∧ u.setpoint ≤ (sentAs s us u).setpoint ∧
    -(sentAs s us u).setpoint ≤
      heldTo ((feederOf s u.feeder).importKw * 1000) (groupImport us u.feeder) (max 0 (-u.setpoint)) := by
  rw [sentAs_setpoint, max_eq_right (by omega : 0 ≤ -u.setpoint)]
  have bounds := heldTo_bounds (limit := (feederOf s u.feeder).importKw * 1000) (sum := groupImport us u.feeder)
    (by positivity) (by omega : 0 ≤ -u.setpoint)
  have clamped : (clampUnit s us u).setpoint =
      -heldTo ((feederOf s u.feeder).importKw * 1000) (groupImport us u.feeder) (-u.setpoint) := by
    rw [clampUnit_setpoint]
    split_ifs <;> omega
  have truncated := (truncated_bounds (clampUnit s us u).setpoint).2 (by omega)
  omega

theorem sentAs_export : max 0 (sentAs s us u).setpoint ≤
    heldTo ((feederOf s u.feeder).exportKw * 1000) (groupExport us u.feeder) (max 0 u.setpoint) := by
  have nonneg := (heldTo_bounds (limit := (feederOf s u.feeder).exportKw * 1000) (sum := groupExport us u.feeder)
    (by positivity) (le_max_left 0 u.setpoint)).1
  rcases le_total 0 u.setpoint with up | down
  · exact max_le nonneg (sentAs_up s us u up).2.2
  · exact max_le nonneg ((sentAs_down s us u down).1.trans nonneg)

theorem sentAs_import : max 0 (-(sentAs s us u).setpoint) ≤
    heldTo ((feederOf s u.feeder).importKw * 1000) (groupImport us u.feeder) (max 0 (-u.setpoint)) := by
  have nonneg := (heldTo_bounds (limit := (feederOf s u.feeder).importKw * 1000) (sum := groupImport us u.feeder)
    (by positivity) (le_max_left 0 (-u.setpoint))).1
  rcases le_total 0 u.setpoint with up | down
  · exact max_le nonneg ((neg_nonpos.2 (sentAs_up s us u up).1).trans nonneg)
  · exact max_le nonneg (sentAs_down s us u down).2.2

end

/-! ### What is sent (R138, R139, R141) -/

theorem negativeSum_eq (us : List UnitShare) : negativeSum us = -negativePower us := by
  induction us with
  | nil => rfl
  | cons u us ih =>
    simp only [negativeSum, negativePower, List.map_cons, List.sum_cons] at ih ⊢
    omega

/-- The figures finished from the units of a round are formed from them. -/
theorem finishFigures_formed (s : State) (f : RoundFigures) (us : List UnitShare) :
    FormedFrom s (finishFigures s f us) us := by
  have clamped : us.map (clampUnit s us) = clampedUnits s us := List.map_congr_left fun u _ => clampUnit_eq s us u
  have sent : (clampedUnits s us).map quantise = (clampedUnits s us).map fun u => { u with
      setpoint := Int.tdiv u.setpoint 10 * 10
      duty := if ∀ p ∈ u.duty, p.2 = 0 then [] else u.duty } :=
    List.map_congr_left fun u _ => by simp only [quantise, List.all_eq_true, decide_eq_true_eq]
  unfold FormedFrom
  dsimp only
  rw [← sent, ← clamped]
  refine ⟨rfl, ?_, rfl, ?_, rfl, negativeSum_eq _⟩
  · refine congrArg _ (List.filter_congr fun u _ => ?_)
    cases u.duty <;> rfl
  · have clamp : (finishFigures s f us).importClamp = negativeSum (us.map (clampUnit s us)) - negativeSum us := rfl
    rw [clamp, negativeSum_eq, negativeSum_eq]
    omega

/-- The setpoints of a round that are not 0, with their units. -/
theorem finishFigures_setpoints (s : State) (f : RoundFigures) (us : List UnitShare) : (finishFigures s f us).setpoints =
    ((us.map (sentAs s us)).filter fun u => decide (u.setpoint ≠ 0)).map fun u => (u.unit, u.setpoint) := by
  unfold finishFigures
  dsimp only
  rw [List.map_map]
  rfl

theorem sentAs_no_duty (s : State) (us : List UnitShare) {u : UnitShare} (h : u.duty = []) : (sentAs s us u).duty = [] := by
  unfold sentAs quantise clampUnit
  dsimp only
  split_ifs <;> simp_all [scaleDuty]

theorem finishFigures_no_duties {s : State} {f : RoundFigures} {us : List UnitShare} (h : ∀ u ∈ us, u.duty = []) :
    (finishFigures s f us).duties = [] := by
  refine List.map_eq_nil_iff.2 (List.filter_eq_nil_iff.2 fun v hv => ?_)
  obtain ⟨w, hw, rfl⟩ := List.mem_map.1 hv
  obtain ⟨u, hu, rfl⟩ := List.mem_map.1 hw
  have none : (quantise (clampUnit s us u)).duty = [] := sentAs_no_duty s us (h u hu)
  rw [none]
  decide

/-- A sum over the setpoints of a group is the sum over the units of the group. -/
theorem sum_setpoints (home : Nat → Nat) (g : Nat) {φ : Int → Int} (zero : φ 0 = 0) {send : UnitShare → UnitShare}
    (own : ∀ u, (send u).unit = u.unit) {us : List UnitShare} (homes : ∀ u ∈ us, u.feeder = home u.unit) :
    ((((((us.map send).filter fun u => decide (u.setpoint ≠ 0)).map fun u => (u.unit, u.setpoint)).filter fun p =>
      home p.1 == g).map fun p => φ p.2).sum : Int) =
        ((us.filter fun u => u.feeder == g).map fun u => φ (send u).setpoint).sum := by
  induction us with
  | nil => rfl
  | cons u us ih =>
    obtain ⟨here, rest⟩ := List.forall_mem_cons.1 homes
    have tail := ih rest
    by_cases mine : u.feeder = g <;> by_cases none : (send u).setpoint = 0 <;>
      simp_all

section
variable {s : State} {us : List UnitShare} (homes : ∀ u ∈ us, u.feeder = (unitOf s u.unit).feeder)
include homes

/-- What a group is sent keeps to its two limits (R138). -/
theorem setpoints_within (f : RoundFigures) (g : Nat) :
    (((((finishFigures s f us).setpoints.filter fun p => (unitOf s p.1).feeder == g).map fun p => max 0 p.2).sum : Int) ≤
      (feederOf s g).exportKw * 1000) ∧
    (((((finishFigures s f us).setpoints.filter fun p => (unitOf s p.1).feeder == g).map fun p => max 0 (-p.2)).sum : Int) ≤
      (feederOf s g).importKw * 1000) := by
  have group (u : UnitShare) (hu : u ∈ us.filter fun u => u.feeder == g) : u.feeder = g := by
    simpa using (List.mem_filter.1 hu).2
  rw [finishFigures_setpoints]
  constructor
  · rw [sum_setpoints (fun i => (unitOf s i).feeder) g (φ := fun x => max 0 x) rfl (sentAs_unit s us) homes]
    exact sum_group_le (by positivity) (fun _ => le_max_left ..) fun u hu => group u hu ▸ sentAs_export s us u
  · rw [sum_setpoints (fun i => (unitOf s i).feeder) g (φ := fun x => max 0 (-x)) rfl (sentAs_unit s us) homes]
    exact sum_group_le (by positivity) (fun _ => le_max_left ..) fun u hu => group u hu ▸ sentAs_import s us u

end

/-- What is sent to a unit is a multiple of 10 W, not 0, and between 0 and the unit's own setpoint. -/
theorem setpoint_sent {s : State} {f : RoundFigures} {us : List UnitShare} {p : Nat × Int}
    (h : p ∈ (finishFigures s f us).setpoints) : ∃ u ∈ us, p.1 = u.unit ∧ p.2 ≠ 0 ∧ p.2 % 10 = 0 ∧
      (0 ≤ u.setpoint → 0 ≤ p.2 ∧ p.2 ≤ u.setpoint) ∧ (u.setpoint ≤ 0 → p.2 ≤ 0) := by
  rw [finishFigures_setpoints] at h
  obtain ⟨v, hv, rfl⟩ := List.mem_map.1 h
  obtain ⟨sent, some⟩ := List.mem_filter.1 hv
  obtain ⟨u, hu, rfl⟩ := List.mem_map.1 sent
  exact ⟨u, hu, sentAs_unit s us u, of_decide_eq_true some, sentAs_tens s us u,
    fun up => ⟨(sentAs_up s us u up).1, (sentAs_up s us u up).2.1⟩, fun down => (sentAs_down s us u down).1⟩

/-! ### The orphan parts (R134) -/

theorem foldl_addTotal (ps t : List (Nat × Int)) (rising : Ascending t) : Ascending (ps.foldl addTotal t) ∧
    ∀ e, tableGet 0 (ps.foldl addTotal t) e =
      tableGet 0 t e + ((ps.filter fun p => p.1 == e).map Prod.snd).sum := by
  induction ps generalizing t with
  | nil => exact ⟨rising, fun e => (add_zero _).symm⟩
  | cons p ps ih =>
    obtain ⟨kept, totals⟩ := ih (addTotal t p) (ascending_tableInsert rising ..)
    refine ⟨kept, fun e => (totals e).trans ?_⟩
    have first : tableGet 0 (addTotal t p) e = tableGet 0 t e + if p.1 = e then p.2 else 0 := by
      unfold addTotal tableGet
      rw [tableFind_tableInsert]
      by_cases own : e = p.1
      · rw [if_pos own, if_pos own.symm, own]
        rfl
      · rw [if_neg own, if_neg (Ne.symm own), add_zero]
    rw [first, List.filter_cons]
    by_cases own : p.1 = e
    · simp [own, add_assoc]
    · simp [own]

/-- Dropping the totals of 0 changes no reading. -/
theorem tableGet_filter_some {t : List (Nat × Int)} (rising : Ascending t) (e : Nat) :
    tableGet 0 (t.filter fun p => decide (p.2 ≠ 0)) e = tableGet 0 t e := by
  induction t with
  | nil => rfl
  | cons p t ih =>
    obtain ⟨above, rest⟩ := ascending_cons.1 rising
    have tail := ih rest
    unfold tableGet at tail ⊢
    rw [List.filter_cons]
    split_ifs with some
    · simp only [tableFind]
      split_ifs
      · rfl
      · exact tail
    · rw [tail]
      simp only [tableFind]
      split_ifs with own
      · rw [tableFind_none_of_lt fun q hq => own ▸ above q hq]
        exact (not_not.1 fun other => some (decide_eq_true other)).symm
      · rfl

/-! ### The units of a round -/

theorem firstPass_own (s : State) (fraction : Product → Int) (i : Nat) :
    (firstPass s fraction i).unit = i ∧ (firstPass s fraction i).feeder = (unitOf s i).feeder ∧
    (firstPass s fraction i).live = contributing s i := by
  unfold firstPass
  dsimp only
  split_ifs <;> exact ⟨rfl, rfl, rfl⟩

/-- A unit of the round belongs to its own group, and has a setpoint only when it contributes. -/
def Placed (s : State) (u : UnitShare) : Prop :=
  u.feeder = (unitOf s u.unit).feeder ∧ u.live = contributing s u.unit ∧ (u.live = false → u.setpoint = 0)

theorem placed_firstPass (s : State) (fraction : Product → Int) (i : Nat) : Placed s (firstPass s fraction i) := by
  obtain ⟨unit, feeder, live⟩ := firstPass_own s fraction i
  refine ⟨unit.symm ▸ feeder, unit.symm ▸ live, fun idle => ?_⟩
  rw [firstPass_idle (live.symm.trans idle)]
  rfl

/-- Pass 2 gives nothing to a unit that is not live. -/
theorem placed_secondPass {s : State} {orphans : List (Nat × Int)} {orphan : Int} {us : List UnitShare}
    (h : ∀ u ∈ us, Placed s u) : ∀ u ∈ secondPass orphans orphan us, Placed s u := by
  by_cases none : orphan = 0
  · rw [none, secondPass_nothing]
    exact h
  · rw [secondPass_eq none]
    intro v hv
    obtain ⟨u, hu, rfl⟩ := List.mem_map.1 hv
    obtain ⟨feeder, live, idle⟩ := h u hu
    refine ⟨feeder, live, fun off => ?_⟩
    have spare : spareOf orphan u = 0 := if_pos off
    have given : givenTo orphan us u = 0 := by
      rcases lt_or_gt_of_ne none with down | up
      · have := givenTo_down down us u
        omega
      · have := givenTo_up up us u
        omega
    show u.setpoint + givenTo orphan us u = 0
    rw [given, idle off]
    rfl

/-- The units of the full-up method: each live unit at its upper bound (R140). -/
def fullUnits (s : State) : List UnitShare :=
  (liveUnits s).map fun i =>
    { unit := i, feeder := (unitOf s i).feeder, live := true, upper := upperBound s i,
      lower := lowerBound s i, setpoint := upperBound s i, duty := [], orphan := [] }

theorem mem_fullUnits {s : State} {u : UnitShare} (h : u ∈ fullUnits s) : Placed s u ∧ contributing s u.unit = true ∧
    u.duty = [] ∧ u.setpoint = if (unitOf s u.unit).floor < (unitOf s u.unit).soc then (unitOf s u.unit).pd else 0 := by
  obtain ⟨i, hi, rfl⟩ := List.mem_map.1 h
  have live : contributing s i = true := (List.mem_filter.1 hi).2
  refine ⟨⟨rfl, live.symm, fun off => nomatch off⟩, live, rfl, ?_⟩
  unfold upperBound
  by_cases room : (unitOf s i).floor < (unitOf s i).soc <;> simp [live, room]

theorem mem_unitsInPlay {s : State} (h : Listed UnitRec.reset s.fleet.units) (i : Nat) :
    i ∈ unitsInPlay s ↔ unitOf s i ≠ UnitRec.reset ∨ ∃ r ∈ s.shares, r.unit = i := by
  unfold unitsInPlay
  rw [mem_setInsertAll, List.mem_map, or_comm]
  refine or_congr_left ?_
  unfold unitOf tableGet
  constructor
  · intro listed
    obtain ⟨p, hp, rfl⟩ := List.mem_map.1 listed
    rw [tableFind_of_mem h.1 hp]
    exact h.2 p hp
  · intro other
    cases found : tableFind s.fleet.units i with
    | none => simp [found] at other
    | some u => exact List.mem_map_of_mem (f := Prod.fst) (tableFind_mem found)

/-! ### The methods (R131) -/

section
variable {s : State}

theorem formFigures_of {m : Method} (h : (baseFigures s).method = m) : formFigures s =
    match (motive := Method → RoundFigures) m with
    | .zeroUnset => baseFigures s
    | .zeroHalt => baseFigures s
    | .fullUp => fullUpFigures s (baseFigures s)
    | .normal => normalFigures s (baseFigures s) := by
  subst h
  rfl

theorem formFigures_zero (h : (baseFigures s).method = .zeroUnset ∨ (baseFigures s).method = .zeroHalt) :
    formFigures s = baseFigures s :=
  h.elim (fun h => formFigures_of h) fun h => formFigures_of h

theorem formFigures_fullUp (h : (baseFigures s).method = .fullUp) :
    formFigures s = finishFigures s (baseFigures s) (fullUnits s) := formFigures_of h

/-- Pass 1 of every unit in play. -/
def firstUnits (s : State) : List UnitShare := (unitsInPlay s).map (firstPass s (fractionOf (baseFigures s)))

/-- The orphan parts that are not 0. -/
def orphansOf (s : State) : List (Nat × Int) := (orphanParts (firstUnits s)).filter fun p => decide (p.2 ≠ 0)

theorem orphansOf_rising (s : State) : ((orphansOf s).map Prod.fst).Pairwise (· < ·) :=
  ascending_sublist (foldl_addTotal _ [] List.Pairwise.nil).1 List.filter_sublist

/-- An entry's orphan part is the sum of what the units orphan of it. -/
theorem orphansOf_total (s : State) (e : Nat) : tableGet 0 (orphansOf s) e =
    ((((firstUnits s).flatMap UnitShare.orphan).filter fun p => p.1 == e).map Prod.snd).sum := by
  obtain ⟨rising, totals⟩ := foldl_addTotal ((firstUnits s).flatMap UnitShare.orphan) [] List.Pairwise.nil
  refine (tableGet_filter_some rising e).trans ((totals e).trans (zero_add _))

/-- The figures of the normal method before the clamp. -/
def normalBase (s : State) : RoundFigures :=
  { baseFigures s with
    orphans := orphansOf s, orphan := pairSum (orphansOf s),
    shortfall := shortfallOf (pairSum (orphansOf s)) (firstUnits s) }

theorem formFigures_normal (h : (baseFigures s).method = .normal) :
    formFigures s = finishFigures s (normalBase s) (secondPass (orphansOf s) (pairSum (orphansOf s)) (firstUnits s)) :=
  formFigures_of h

/-- The units a round's setpoints are formed from. -/
def unitsSent (s : State) : List UnitShare :=
  match (baseFigures s).method with
  | .normal => secondPass (orphansOf s) (pairSum (orphansOf s)) (firstUnits s)
  | .fullUp => fullUnits s
  | _ => []

/-- Whatever the method, the setpoints of a round are those of its units. -/
theorem formFigures_finished (s : State) : ∃ f, f.liveUnits = (liveUnits s).length ∧ f.method = (baseFigures s).method ∧
    formFigures s = finishFigures s f (unitsSent s) := by
  unfold unitsSent
  cases h : (baseFigures s).method with
  | normal => exact ⟨normalBase s, rfl, h, formFigures_normal h⟩
  | fullUp => exact ⟨_, rfl, h, formFigures_fullUp h⟩
  | zeroUnset => exact ⟨baseFigures s, rfl, h, (formFigures_zero (.inl h)).trans rfl⟩
  | zeroHalt => exact ⟨baseFigures s, rfl, h, (formFigures_zero (.inr h)).trans rfl⟩

theorem placed_unitsSent (s : State) : ∀ u ∈ unitsSent s, Placed s u := by
  unfold unitsSent
  cases (baseFigures s).method with
  | normal =>
    refine placed_secondPass fun u hu => ?_
    obtain ⟨i, -, rfl⟩ := List.mem_map.1 hu
    exact placed_firstPass ..
  | fullUp => exact fun u hu => (mem_fullUnits hu).1
  | zeroUnset => exact fun u hu => nomatch hu
  | zeroHalt => exact fun u hu => nomatch hu

theorem method_eq (s : State) : (baseFigures s).method = methodOf s.time.timeSet s.disp.override := rfl

/-- Power is sent only while time is set and HALT is not in force. -/
theorem sends_of_mem {u : UnitShare} (h : u ∈ unitsSent s) : s.time.timeSet = true ∧ s.disp.override ≠ .halt := by
  unfold unitsSent at h
  rw [method_eq] at h
  cases set : s.time.timeSet with
  | false => exact nomatch (set ▸ h)
  | true =>
    refine ⟨rfl, fun halt => ?_⟩
    rw [set, halt] at h
    exact nomatch h

end

/-- Settles O40: the setpoints of every method go through one clamp, whose scaled sums keep to a group's limits, and
each method's units carry a setpoint only when they contribute. -/
theorem setpointsHoldTheFeederLimits : Obligations.SetpointsHoldTheFeederLimits := by
  intro s f live formed
  obtain ⟨f', units, method, finished⟩ := formFigures_finished s
  have homes (u : UnitShare) (hu : u ∈ unitsSent s) := (placed_unitsSent s u hu).1
  have limits := setpoints_within homes f'
  rw [← finished] at limits
  have is : f.method = (baseFigures s).method := (congrArg RoundFigures.method finished).trans method
  refine ⟨fun g => (limits g).1, fun g => (limits g).2, fun p hp => ?_,
    (congrArg RoundFigures.liveUnits finished).trans units, fun other => ?_, fun zero => ?_, fun full => ?_, fun normal => ?_, fun tables => ?_⟩
  · have listed : p ∈ (finishFigures s f' (unitsSent s)).setpoints := finished ▸ hp
    obtain ⟨u, hu, unit, some, tens, up, down⟩ := setpoint_sent listed
    obtain ⟨-, live, idle⟩ := placed_unitsSent s u hu
    have contributes : contributing s p.1 = true := by
      rw [unit, ← live]
      by_contra off
      have none := idle (Bool.eq_false_iff.2 off)
      omega
    obtain ⟨set, nohalt⟩ := sends_of_mem hu
    refine ⟨set, nohalt, contributes, tens, fun full => ?_⟩
    have filled : u ∈ fullUnits s := by
      rwa [unitsSent, show (baseFigures s).method = .fullUp by rw [method_eq, set, full]; rfl] at hu
    obtain ⟨-, -, -, setpoint⟩ := mem_fullUnits filled
    rw [← unit] at setpoint
    have nonneg : 0 ≤ u.setpoint := by
      rw [setpoint]
      split_ifs <;> simp
    obtain ⟨sent, whole⟩ := up nonneg
    by_cases room : (unitOf s p.1).floor < (unitOf s p.1).soc
    · rw [if_pos room] at setpoint
      exact ⟨by omega, by omega, room⟩
    · rw [if_neg room] at setpoint
      omega
  · cases h : (baseFigures s).method with
    | normal => exact absurd (is.trans h) other
    | fullUp =>
      have finish : f = _ := formFigures_fullUp h
      rw [finish]
      exact ⟨rfl, rfl, rfl, finishFigures_no_duties fun u hu => (mem_fullUnits hu).2.2.1⟩
    | zeroUnset =>
      have none : f = _ := formFigures_zero (.inl h)
      rw [none]
      exact ⟨rfl, rfl, rfl, rfl⟩
    | zeroHalt =>
      have none : f = _ := formFigures_zero (.inr h)
      rw [none]
      exact ⟨rfl, rfl, rfl, rfl⟩
  · have none : f = _ := formFigures_zero (is ▸ zero)
    rw [show formed = FormedFrom s f from rfl, none]
    exact finishFigures_formed s (baseFigures s) []
  · have finish : f = _ := formFigures_fullUp (is ▸ full)
    rw [show formed = FormedFrom s f from rfl, finish]
    refine ⟨fullUnits s, finishFigures_formed .., ?_, fun u hu => ?_⟩
    · exact (List.map_map ..).trans (List.map_id _)
    · obtain ⟨⟨feeder, -⟩, -, duty, setpoint⟩ := mem_fullUnits hu
      exact ⟨feeder, duty, setpoint⟩
  · have finish : f = _ := formFigures_normal (is ▸ normal)
    intro fraction first
    have fractions : fractionOf (baseFigures s) = fraction := funext fun p => by
      cases p with
      | fsr => exact (congrArg RoundFigures.aF finish).symm
      | rsu => exact (congrArg (fun f => (f.aU : Int)) finish).symm
      | rsd => exact (congrArg (fun f => -(f.aD : Int)) finish).symm
    have rows : first = firstUnits s := congrArg (fun φ => (unitsInPlay s).map (firstPass s φ)) fractions.symm
    have orphans : f.orphans = orphansOf s := congrArg RoundFigures.orphans finish
    have orphan : f.orphan = pairSum (orphansOf s) := congrArg RoundFigures.orphan finish
    have shortfall : f.shortfall = shortfallOf (pairSum (orphansOf s)) (firstUnits s) :=
      congrArg RoundFigures.shortfall finish
    rw [orphans, orphan, shortfall, rows]
    refine ⟨?_, orphansOf_rising s, fun p hp => of_decide_eq_true (List.mem_filter.1 hp).2, orphansOf_total s, rfl, rfl⟩
    rw [show formed = FormedFrom s f from rfl, finish]
    exact finishFigures_formed ..
  · exact ⟨rising_setInsertAll tables.1.1 _, mem_unitsInPlay tables.1⟩

end Sys2Proof.Machine

/-! PROOF. The reads: what they answer, and the read-out forms field by field (R25, R30, R55, R78, R79, R142; 11, Field
widths, Read-out forms). -/

namespace Sys2Proof.Machine

/-! ### Fields read back -/

theorem readU_putU_alone {n v : Nat} (h : v < 256 ^ n) : readU (putU n v) 0 n = v := by
  simpa using readU_putU h [] []

/-- A signed field reads back as itself: its bytes are the value, or the value raised by 2 to the field's width. -/
theorem readS_putS {n : Nat} {v : Int} (bytes : 1 ≤ n) (lower : -2 ^ (8 * n - 1) ≤ v) (upper : v < 2 ^ (8 * n - 1)) :
    readS (putS n v) 0 n = v := by
  have double : (2 : Nat) ^ (8 * n) = 2 * 2 ^ (8 * n - 1) := by
    rw [← pow_succ', Nat.sub_add_cancel (by omega)]
  have whole : 256 ^ n = (2 : Nat) ^ (8 * n) := by
    rw [pow_mul]
    rfl
  have halfInt : ((2 ^ (8 * n - 1) : Nat) : Int) = 2 ^ (8 * n - 1) := by push_cast; rfl
  have wholeInt : (2 : Int) ^ (8 * n) = 2 * ((2 ^ (8 * n - 1) : Nat) : Int) := by
    rw [halfInt, ← pow_succ', Nat.sub_add_cancel (by omega)]
  have raw : (v % (2 : Int) ^ (8 * n)).toNat < 256 ^ n := by
    have := Int.emod_lt_of_pos v (show (0 : Int) < 2 ^ (8 * n) by positivity)
    rw [whole, double]
    omega
  have read : readU (putS n v) 0 n = (v % (2 : Int) ^ (8 * n)).toNat := by
    have all : (putS n v).take n = putS n v := List.take_of_length_le (putS_length n v).le
    rw [readU, List.drop_zero, all, putS, if_pos ⟨lower, upper⟩, natOfBytes_leBytes, Nat.mod_eq_of_lt raw]
  rw [← halfInt] at lower upper
  rw [readS, read, toSigned, wholeInt]
  by_cases negative : v < 0
  · have wrapped : v % (2 * ((2 ^ (8 * n - 1) : Nat) : Int)) = v + 2 * ((2 ^ (8 * n - 1) : Nat) : Int) := by
      rw [← Int.add_emod_right]
      exact Int.emod_eq_of_lt (by omega) (by omega)
    rw [wrapped, if_neg (by omega)]
    omega
  · rw [Int.emod_eq_of_lt (by omega) (by omega), if_pos (by omega)]
    omega

/-! ### Flags and codes -/

/-- A flags byte is the sum of its flags' places. -/
theorem flagBits_range (n : Nat) (f : Nat → Bool) :
    flagBits ((List.range n).map f) = ((List.range n).map fun k => if f k = true then 2 ^ k else 0).sum := by
  induction n generalizing f with
  | zero => rfl
  | succ n ih =>
    have twice : ((List.range n).map fun k => if f (k + 1) = true then 2 ^ (k + 1) else 0).sum =
        2 * ((List.range n).map fun k => if f (k + 1) = true then 2 ^ k else 0).sum := by
      rw [← List.sum_map_mul_left]
      exact congrArg List.sum (List.map_congr_left fun k _ => by split_ifs <;> ring)
    rw [List.range_succ_eq_map]
    simp only [List.map_cons, List.map_map, Function.comp_def, flagBits, List.sum_cons, Nat.succ_eq_add_one, twice, ih,
      pow_zero]

theorem channelMask_eq (cs : List Nat) :
    channelMask cs = putU 1 (((List.range 8).map fun k => if k ∈ cs then 2 ^ k else 0).sum) := by
  rw [channelMask, putFlags, flagBits_range]
  refine congrArg (putU 1) (congrArg List.sum (List.map_congr_left fun k _ => ?_))
  by_cases listed : k ∈ cs <;> simp [listed]

theorem putFlags_six (a b c d e f : Bool) : putFlags [a, b, c, d, e, f] = putU 1 ((if a then 1 else 0) +
    2 * (if b then 1 else 0) + 4 * (if c then 1 else 0) + 8 * (if d then 1 else 0) + 16 * (if e then 1 else 0) +
    32 * if f then 1 else 0) := by
  simp only [putFlags, flagBits]
  congr 1
  ring

theorem rejectCode_eq (u : UnitState) : rejectCode u = match u with
    | .rejected .missingRecord => 1
    | .rejected .badKind => 2
    | .rejected .badWidth => 3
    | .rejected .badScale => 4
    | .rejected .payloadTooLong => 5
    | .rejected .badFeeder => 6
    | _ => 0 := by
  cases u with
  | rejected reason => cases reason <;> rfl
  | _ => rfl

theorem unitRecords_length (rs : List ShareRec) (i : Nat) :
    (unitRecords rs i).length = (rs.filter fun r => r.unit == i).length := (sortBy_perm ..).length_eq

theorem awardedTotal_eq (s : State) (p : Product) : awardedTotal s p =
    ((s.book.entries.filter fun q => q.2.state == .active && q.2.product == p).map fun q => q.2.awarded.getD 0).sum := by
  unfold awardedTotal
  induction s.book.entries with
  | nil => rfl
  | cons q qs ih =>
    rw [List.map_cons, List.sum_cons, ih, List.filter_cons]
    by_cases of : q.2.state = .active ∧ q.2.product = p
    · simp [of]
    · have others : (q.2.state == .active && q.2.product == p) = false := by simpa using of
      rw [if_neg of, others, zero_add]
      rfl

/-! ### The forms -/

theorem entrySummary_length (s : State) (n : Nat) (e : Entry) : (entrySummary s n e).length = 22 := by
  simp [entrySummary, putFlags]

theorem shareForm_length (r : ShareRec) : (shareForm r).length = 15 := by simp [shareForm]

theorem unitStatus_length (s : State) (i : Nat) : (unitStatus s i).length = 33 := by
  unfold unitStatus
  dsimp only
  split_ifs <;> simp [putFlags]

theorem channelStatus_length (r : ChannelRec) : (channelStatus r).length = 10 := by
  unfold channelStatus
  cases r.discovery <;> simp [putFlags]

theorem flatMap_length {α : Type} {n : Nat} {f : α → List Byte} (h : ∀ a, (f a).length = n) (as : List α) :
    (as.flatMap f).length = n * as.length := by
  induction as with
  | nil => rfl
  | cons a as ih =>
    rw [List.flatMap_cons, List.length_append, h, ih, List.length_cons]
    ring

/-! ### The reads -/

theorem frameComplete_frame (l : Link) (s : State) :
    frameComplete l s = { s with links := (frameComplete l s).links } := setLink_frame ..

/-- A read of TL or GL answers what it reads of the state as it stood. -/
theorem exec_master_read {q : Request} {l : Link} {c : List Byte} {s : State} {form : State → List Byte} (h : CanTake s l)
    (hl : l = .tl ∨ l = .gl) (ha : allowed q (classOf l) = true) (hc : c.length = contentsLength q)
    (reads : q ≠ .activate) (hx : contentsRefusal c q = none)
    (taken : takeOf q l c (frameComplete l s) = (frameComplete l s, .answer .done (form (frameComplete l s))))
    (still : ∀ links, form { s with links := links } = form s) (tag : Byte) :
    exec (commandOf q l tag c) s = .next (settle (answered q l tag .done (form s) (frameComplete l s))) := by
  have formed : form (frameComplete l s) = form s := by
    rw [frameComplete_frame]
    exact still _
  exact exec_master_answered h hl ha hc reads hx (formed ▸ taken) tag

theorem exec_fleet_read {q : Request} {l : Link} {c : List Byte} {s t : State} {m : UnitMap} {result : List Byte}
    (h : CanTake s l) (hm : mapOf s l = some m) (ha : allowed q .fleet = true) (hc : c.length = contentsLength q)
    (reads : q ≠ .activate) (hx : contentsRefusal c q = none) (hn : namesPermitted m c q = true)
    (taken : takeOf q l c (frameComplete l s) = (t, .answer .done result)) (tag : Byte) :
    exec (commandOf q l tag c) s = .next (settle (answered q l tag .done result t)) := by
  rw [exec_commandOf, receiveCommand, if_neg reads]
  exact receiveRequest_fleet_answered h hm ha hc hx hn taken tag

/-- Settles O11: the reads by what their blocks answer, the forms field by field. -/
theorem readsChangeNothing : Obligations.ReadsChangeNothing := by
  refine ⟨fun l tag c s h => ?reads, fun n v => ⟨putU_length n v, readU_putU_alone⟩,
    fun n v => ⟨putS_length n v, readS_putS⟩, fun s => ?forms⟩
  case reads =>
    intro u
    refine ⟨?feeders, ?units, ?list, ?entry, ?dispatch, ?channels⟩
    case feeders =>
      rintro rfl hc
      exact exec_master_read (q := .feeders) (form := feedersForm) h (.inl rfl) rfl hc (by simp) rfl rfl (fun _ => rfl) tag
    case units =>
      intro from_ hc one most last
      have hx : contentsRefusal c .units = none := if_neg (by omega)
      rcases from_ with rfl | ⟨m, hm, all⟩
      · exact exec_master_read (q := .units) (form := fun s => unitsForm s (readU c 0 2) (readU c 2 1)) h (.inl rfl) rfl hc
          (by simp) hx rfl (fun _ => rfl) tag
      · have formed : unitsForm (frameComplete l s) (readU c 0 2) (readU c 2 1) =
            unitsForm s (readU c 0 2) (readU c 2 1) := by
          rw [frameComplete_frame]
          rfl
        exact exec_fleet_read (q := .units) h hm rfl hc (by simp) hx
          (List.all_eq_true.2 fun k hk => all k (List.mem_range.1 hk))
          (congrArg (fun f => (frameComplete l s, done f)) formed) tag
    case list =>
      intro hl hc key
      refine exec_master_read (q := .list) (form := fun s => listForm s (bookReading s (readBit c 0 0) (readBit c 0 1)
        (readU c 1 4) (readU c 5 2))) h hl
        (by rcases hl with rfl | rfl <;> rfl) hc (by simp) rfl (if_neg ?_) (fun _ => rfl) tag
      rintro ⟨unset, out⟩
      rcases key with set | within
      · rw [set] at unset
        cases unset
      · omega
    case entry =>
      intro e hl hc bound found page
      refine exec_master_read (q := .entry) (form := fun s => entryForm s (readU c 0 2) (readU c 2 2) e) h hl
        (by rcases hl with rfl | rfl <;> rfl) hc (by simp) rfl ((if_neg (not_lt.2 bound)).trans ?_) (fun _ => rfl) tag
      rw [entryOf_frameComplete, found]
      exact if_neg (not_lt.2 page)
    case dispatch =>
      rintro rfl hc
      exact exec_master_read (q := .dispatch) (form := dispatchForm) h (.inr rfl) rfl hc (by simp) rfl rfl (fun _ => rfl) tag
    case channels =>
      intro hl hc
      rcases hl with rfl | rfl
      · exact exec_fleet_read (q := .channels) h rfl rfl hc (by simp) rfl rfl rfl tag
      · exact exec_fleet_read (q := .channels) h rfl rfl hc (by simp) rfl rfl rfl tag
  case forms =>
    intro fields bit product summary record status channel
    have summary_eq (n : Nat) (e : Entry) : entrySummary s n e = summary n e := by
      simp only [entrySummary, summary, fields, putFlags_one, List.flatMap_cons, List.flatMap_nil, List.append_nil,
        List.append_assoc]
      cases e.product <;> cases e.state <;> rfl
    have record_eq (r : ShareRec) : shareForm r = record r := by
      simp only [shareForm, record, fields, List.flatMap_cons, List.flatMap_nil, List.append_nil, List.append_assoc]
      cases r.cls <;> rfl
    have status_eq (i : Nat) : unitStatus s i = status i := by
      simp only [unitStatus, status, fields, unitRecords_length, rejectCode_eq, putFlags_two, List.flatMap_cons,
        List.flatMap_nil, List.append_nil, List.append_assoc]
      by_cases empty : (unitOf s i).state = .empty
      · rw [if_pos empty, if_pos empty]
      · rw [if_neg empty, if_neg empty, confidence_eq]
        cases (unitOf s i).state <;> rfl
    have channel_eq (k : Nat) : channelStatus (channelOf s k) = channel k := by
      simp only [channelStatus, channel, fields, putFlags_one, putFlags_six, List.flatMap_cons, List.flatMap_nil,
        List.append_nil, List.append_assoc]
      cases (channelOf s k).discovery with
      | none => cases (channelOf s k).state <;> rfl
      | some d =>
        obtain ⟨step, attempt, position, page, records⟩ := d
        cases (channelOf s k).state <;> cases step <;> rfl
    refine ⟨?_, fun first count => ?_, fun first count => ?_, fun reading => ?_, fun n page e => ⟨?_, ?_⟩, ?_, ?_, ?_⟩
    · simp only [feedersForm, feederForm, fields, List.flatMap_cons, List.flatMap_nil, List.append_nil]
      rfl
    · rw [unitsForm, funext fun k => status_eq (first + k)]
    · rw [unitsForm, List.length_append, putU_length, flatMap_length (fun k => unitStatus_length s (first + k)),
        List.length_range]
    · simp only [listForm, fields, putFlags_one, List.length_take, summary_eq, List.flatMap_cons, List.flatMap_nil,
        List.append_nil, List.append_assoc]
      rfl
    · rw [entryForm, summary_eq, funext record_eq]
      simp only [fields, entryRecords, powerSum, List.flatMap_cons, List.flatMap_nil, List.append_nil, List.append_assoc]
    · rw [entryForm]
      simp only [List.length_append, entrySummary_length, putU_length, flatMap_length shareForm_length, entryRecords]
    · rw [channelsForm, channelStatuses, funext channel_eq, channelMask_eq]
      simp only [fields, List.flatMap_cons, List.flatMap_nil, List.append_nil, List.append_assoc]
      rfl
    · simp only [channelsForm, channelStatuses, channelMask, putFlags, List.length_append, putU_length,
        flatMap_length fun k => channelStatus_length (channelOf s k), List.length_range]
    · simp only [dispatchForm, fields, awardedTotal_eq, putFlags_two, List.flatMap_cons, List.flatMap_nil,
        List.append_nil, List.append_assoc]
      cases s.disp.figures with
      | none => cases s.disp.override <;> rfl
      | some f =>
        simp only [figuresForm, putFlags_one, putFlags_two, List.length_take, List.append_assoc]
        cases s.disp.override <;> cases f.method <;> rfl

end Sys2Proof.Machine
